-- ==== Sys2Proof/Word.lean ====
section
/-! DEFINITION. The units of data of the TSSI deframer: a byte, a PID, a byte sequence. -/

namespace Sys2Proof

/-- One byte (00_scope.md R10: bits 7 down to 0, bit 7 most significant). -/
abbrev Byte := BitVec 8

/-- A Packet Identifier, `PID_W = 13` bits (00_scope.md R7). -/
abbrev Pid := BitVec 13

/-- A byte sequence, indexed from 0 (00_scope.md R10). -/
abbrev Bytes := List Byte

end Sys2Proof
end

