-- ==== Sys2Proof/Config.lean ====
section
/-! DEFINITION. The parameters of 00_scope.md R9 and 10_state.md R46, with their defaults, and the two functions the spec
leaves uninterpreted. The parameters that are plain data are the structure `Config`, which the state
carries unchanged (assumption log 1); the two functions are opaque constants (assumption log 2). -/

namespace Sys2Proof

/-- A teletext page key, in the containers of 10_state.md R44. -/
structure EbuKey where
  magazine : BitVec 4
  page : BitVec 8
  subpage : BitVec 16
deriving DecidableEq, Repr

/-- An abstract EBU event, 45_packet_decoders.md R354. -/
inductive EbuEvent where
  | header (key : EbuKey)
  | line (key : EbuKey) (row : Byte) (data : Bytes)
deriving DecidableEq, Repr

/-- One collected DSM-CC section, 10_state.md R42 and 43_table_decoders.md R262. -/
structure DsmccEntry where
  tableId : Byte
  tableIdExtension : BitVec 16
  versionNumber : BitVec 5
  sectionNumber : Byte
  lastSectionNumber : Byte
  bytes : Bytes
deriving DecidableEq, Repr

/-- The parameter `ebu_units` of R9: the uninterpreted function, or an instance that is plain data, of
the shape 95_test_vectors.md P6 fixes ("by the first payload byte"). Assumption log 2. -/
inductive EbuRule where
  | uninterpreted
  | byFirstByte (rows : List (Byte × List EbuEvent))
deriving DecidableEq, Repr

/-- The parameter `dsmcc_complete` of R9: the uninterpreted predicate, the constant-false one, or the
non-normative `complete_by_numbers` of 43_table_decoders.md R264. Assumption log 2. -/
inductive DsmccRule where
  | uninterpreted
  | never
  | byNumbers
deriving DecidableEq, Repr

/-- The `table_id` map of 30_encoding.md R112, R113: for each role but DSMCC the ids its decoder accepts; the
defaults are those tables'. A parameter by 10_state.md R46. Assumption log 17. -/
structure TableIds where
  pat : List Byte := [0x00#8]
  pmt : List Byte := [0x02#8]
  nit : List Byte := [0x40#8, 0x41#8]
  sdt : List Byte := [0x42#8, 0x46#8]
  /-- `0x4E` to `0x6F` -/
  eit : List Byte := (List.range 34).map fun n => BitVec.ofNat 8 (0x4E + n)
  tdt : List Byte := [0x70#8]
  ait : List Byte := [0x74#8]
deriving DecidableEq, Repr

/-- The descriptor tag maps of 30_encoding.md R114, R115: the tag of each kind of a namespace; the defaults are
those tables'. A parameter by 10_state.md R46. Assumption log 17. -/
structure DescTags where
  -- namespace SI, R114
  ca : Byte := 0x09#8
  iso639 : Byte := 0x0A#8
  carouselId : Byte := 0x13#8
  networkName : Byte := 0x40#8
  serviceList : Byte := 0x41#8
  service : Byte := 0x48#8
  linkage : Byte := 0x4A#8
  shortEvent : Byte := 0x4D#8
  extEvent : Byte := 0x4E#8
  component : Byte := 0x50#8
  streamId : Byte := 0x52#8
  content : Byte := 0x54#8
  parental : Byte := 0x55#8
  teletext : Byte := 0x56#8
  subtitling : Byte := 0x59#8
  dataBcastId : Byte := 0x66#8
  appSignalling : Byte := 0x6F#8
  -- namespace AIT, R115
  application : Byte := 0x00#8
  appName : Byte := 0x01#8
  transportProtocol : Byte := 0x02#8
deriving DecidableEq, Repr

/-- The parameters of 00_scope.md R9 and 10_state.md R46 that are plain data; each default is the third column of
R9, and for the two maps the tables of 30_encoding.md. -/
structure Config where
  /-- `SYNC_BYTE` -/
  syncByte : Byte := 0x47#8
  /-- `XBUF`: carry a trailing partial packet over to the next batch -/
  xbuf : Bool := false
  /-- `CNT_W`: width of the two counters -/
  cntW : Nat := 64
  /-- `CRC_POLY` -/
  crcPoly : BitVec 32 := 0x04C11DB7#32
  /-- `CRC_INIT` -/
  crcInit : BitVec 32 := 0xFFFFFFFF#32
  /-- `CRC_REFLECT` -/
  crcReflect : Bool := false
  /-- `CRC_XOROUT` -/
  crcXorOut : BitVec 32 := 0#32
  /-- `CRC_EXEMPT`: table ids whose sections carry no CRC trailer -/
  crcExempt : List Byte := []
  /-- `STUFFING_TABLE_IDS` -/
  stuffingIds : List Byte := [0x72#8]
  /-- `PID_PAT` -/
  pidPat : Pid := 0x0000#13
  /-- `PID_NIT` -/
  pidNit : Pid := 0x0010#13
  /-- `PID_SDT` -/
  pidSdt : Pid := 0x0011#13
  /-- `PID_EIT` -/
  pidEit : Pid := 0x0012#13
  /-- `PID_TDT` -/
  pidTdt : Pid := 0x0014#13
  /-- `DSMCC_TABLE_IDS` -/
  dsmccIds : List Byte := [0x3B#8, 0x3C#8]
  /-- the `table_id` map -/
  tableIds : TableIds := {}
  /-- the descriptor tag maps -/
  descTags : DescTags := {}
  /-- `ebu_units` -/
  ebuRule : EbuRule := .uninterpreted
  /-- `dsmcc_complete` -/
  dsmccRule : DsmccRule := .uninterpreted
deriving DecidableEq, Repr

/-- The uninterpreted `ebu_units` (45_packet_decoders.md R354): nothing is known of it. Assumption log 2. -/
opaque Config.freeEbuUnits : Bytes → Bool → List EbuEvent

/-- The uninterpreted `dsmcc_complete` (43_table_decoders.md R264): nothing is known of it. Assumption log 2. -/
opaque Config.freeDsmccComplete : List DsmccEntry → Bool

end Sys2Proof
end

