-- ==== Sys2Proof/Syntax.lean ====
section
/-! DEFINITION. The instructions of the TSSI deframer, one constructor for each row of
spec/opcode_table.json (00_scope.md R6: an instruction is one decoded unit), and the raw units that are
decoded to them (`Code`). -/

namespace Sys2Proof

/-- The ten decoder instances, 00_scope.md R8. -/
inductive UnitId where
  | pat | pmt | nit | sdt | eit | tdt | ait | dsmcc | pcr | ebu
deriving DecidableEq, Repr

/-- The namespace of a descriptor list, 10_state.md R43. -/
inductive Namespace where
  | si | ait
deriving DecidableEq, Repr

/-- The roles whose sections are decoded, 30_encoding.md R113. -/
inductive Role where
  | pat | pmt | nit | sdt | eit | tdt | ait | dsmcc
deriving DecidableEq, Repr

/-- The descriptor kinds, 44_descriptors.md R301. -/
inductive DescKind where
  | generic | ca | iso639 | carouselId | networkName | serviceList | service | linkage | shortEvent
  | extEvent | component | streamId | content | parental | teletext | subtitling | dataBcastId
  | appSignalling | application | appName | transportProtocol
deriving DecidableEq, Repr

/-- The header fields of a TS packet but the sync byte and `afc`, which the mnemonic fixes
(30_encoding.md R101). -/
structure PktHead where
  tei : Bool
  pusi : Bool
  prio : Bool
  pid : Pid
  tsc : BitVec 2
  cc : BitVec 4
deriving DecidableEq, Repr

/-- A raw unit, as a port or a store of the block presents it to the decoder (30_encoding.md R100).
The units with a bit pattern carry their bits; those of format `internal` carry their operands. -/
inductive Code where
  /-- format CMD64 -/
  | cmdWord (w : BitVec 64)
  /-- the stream port: the bytes of one batch -/
  | batch (bytes : Bytes)
  /-- the notification port -/
  | ack
  /-- formats TSPKT32: the 188 bytes of a packet -/
  | packet (bytes : Bytes)
  /-- format TSPKT48: the packet routed to the PCR decoder -/
  | pcrPacket (bytes : Bytes)
  /-- a packet with payload routed to the reassembler: triggers SEC.CC -/
  | payloadPacket (pid : Pid) (payload : Bytes)
  /-- a payload that passed the continuity check: triggers SEC.START or SEC.APPEND, by `pusi` -/
  | payload (pusi : Bool) (pid : Pid) (payload : Bytes)
  /-- after an append to `ctx[p].buf`: triggers SEC.DRAIN -/
  | drain (pid : Pid)
  /-- one whole section extracted: SEC.ST for a stuffing table id, else SEC.CRC -/
  | extracted (pid : Pid) (sec : Bytes)
  /-- a section whose CRC is valid: triggers SEC.DISPATCH -/
  | validated (pid : Pid) (sec : Bytes)
  /-- format SECTION.table_id8: a section on a PID with the given roles -/
  | table (pid : Pid) (roles : List Role) (sec : Bytes)
  /-- formats DESC.*.tag8: exactly one descriptor, in its namespace -/
  | descriptor (ns : Namespace) (bytes : Bytes)
  /-- format ebu-event -/
  | event (ev : EbuEvent)
deriving DecidableEq, Repr

/-- The instructions: one constructor per row of spec/opcode_table.json, in the table's order. -/
inductive Instr where
  -- host commands (40_host_commands.md)
  | reset
  | setPidDsmcc (pid : Pid)
  | setPidAit (pid : Pid)
  | setPidPcr (pid : Pid)
  | setPidEbu (pid : Pid)
  | getErrors
  | getPackets
  | registerCb (unit : UnitId)
  | unregisterCb (unit : UnitId)
  | getField (unit : UnitId) (sel : Byte) (idx1 : BitVec 16) (idx2 : BitVec 12)
  | getListLen (unit : UnitId) (sel : Byte) (idx1 : BitVec 16)
  | getDescListLenAll (unit : UnitId) (sel : Byte) (idx1 : BitVec 16)
  | getDescListLenForTag (unit : UnitId) (sel : Byte) (idx1 : BitVec 16) (tag : Byte)
  | getDescByIndex (unit : UnitId) (sel : Byte) (idx1 : BitVec 16) (idx2 : BitVec 12)
  | getDescByTag (unit : UnitId) (sel : Byte) (idx1 : BitVec 16) (idx2 : BitVec 12) (tag : Byte)
  | getDescField (unit : UnitId) (sel : Byte) (idx1 : BitVec 16) (idx2 : BitVec 12) (idx3 : Byte) (fid : Byte)
  | dsmccIsComplete
  | dsmccDecode
  -- the stream and notification ports
  | process (bytes : Bytes)
  | ack
  -- packets (41_packet_deframe_route.md): header fields, then packet bytes 4 to 187
  | tspktRsv (h : PktHead) (rest : Bytes)
  | tspktPl (h : PktHead) (rest : Bytes)
  | tspktAf (h : PktHead) (rest : Bytes)
  | tspktAfpl (h : PktHead) (rest : Bytes)
  -- the PCR decoder (45_packet_decoders.md)
  | pcrDecode (pid : Pid) (afl : Byte) (field : BitVec 48)
  -- the reassembler's micro-operations (42_section_reassembly_crc.md)
  | secCc (pid : Pid) (payload : Bytes)
  | secStart (pid : Pid) (payload : Bytes)
  | secAppend (pid : Pid) (payload : Bytes)
  | secDrain (pid : Pid)
  | secCrc (pid : Pid) (sec : Bytes)
  | secDispatch (pid : Pid) (sec : Bytes)
  -- sections (43_table_decoders.md)
  | secPat (sec : Bytes)
  | secPmt (sec : Bytes)
  | secDsmcc (sec : Bytes)
  | secNit (sec : Bytes)
  | secSdt (sec : Bytes)
  | secEit (sec : Bytes)
  | secTdt (sec : Bytes)
  | secSt (sec : Bytes)
  | secAit (sec : Bytes)
  | secStuff (pid : Pid)
  | secOther (sec : Bytes)
  -- descriptors (44_descriptors.md): the body
  | descCa (body : Bytes)
  | descIso639 (body : Bytes)
  | descCarouselId (body : Bytes)
  | descNetworkName (body : Bytes)
  | descServiceList (body : Bytes)
  | descService (body : Bytes)
  | descLinkage (body : Bytes)
  | descShortEvent (body : Bytes)
  | descExtEvent (body : Bytes)
  | descComponent (body : Bytes)
  | descStreamId (body : Bytes)
  | descContent (body : Bytes)
  | descParental (body : Bytes)
  | descTeletext (body : Bytes)
  | descSubtitling (body : Bytes)
  | descDataBcastId (body : Bytes)
  | descAppSignalling (body : Bytes)
  | descApplication (body : Bytes)
  | descAppName (body : Bytes)
  | descTransportProtocol (body : Bytes)
  | descGeneric (ns : Namespace) (tag : Byte) (body : Bytes)
  -- EBU events (45_packet_decoders.md)
  | ebuHeader (key : EbuKey)
  | ebuLine (key : EbuKey) (row : Byte) (data : Bytes)
deriving DecidableEq, Repr

end Sys2Proof
end

