-- ==== Sys2Proof/Decode.lean ====
section
/-! DEFINITION. The decoder of every level (30_encoding.md R100), total on any unit and rejecting by
name, and after it the encoder, written from the same tables. The byte-order helpers of 00_scope.md R10
stand first, so that every file that reads a field uses the same ones. -/

namespace Sys2Proof

/-! ## Byte order (00_scope.md R10, 20_memory.md R70, R71) -/

/-- `u8(s,o)`: byte `o` of `s`. Every rule tests the length before it reads, so the value past the end
(0) decides nothing. -/
def byteAt (s : Bytes) (o : Nat) : Byte := s.getD o 0#8

/-- `u16(s,o)`, big-endian. -/
def u16 (s : Bytes) (o : Nat) : BitVec 16 := byteAt s o ++ byteAt s (o + 1)

/-- `u24(s,o)`, big-endian. -/
def u24 (s : Bytes) (o : Nat) : BitVec 24 := u16 s o ++ byteAt s (o + 2)

/-- `u32(s,o)`, big-endian. -/
def u32 (s : Bytes) (o : Nat) : BitVec 32 := u16 s o ++ u16 s (o + 2)

/-- `u40(s,o)`, big-endian. -/
def u40 (s : Bytes) (o : Nat) : BitVec 40 := u32 s o ++ byteAt s (o + 4)

/-- `u48(s,o)`, big-endian. -/
def u48 (s : Bytes) (o : Nat) : BitVec 48 := u32 s o ++ u16 s (o + 4)

/-- `s[a:b]`: bytes `a` to `b-1`, as far as they exist. -/
def slice (s : Bytes) (a b : Nat) : Bytes := (s.take b).drop a

/-- The two bytes of a 16-bit value, most significant first. -/
def be16 (v : BitVec 16) : Bytes := [v.extractLsb' 8 8, v.extractLsb' 0 8]

/-- `be32(v)`: the 4 bytes of `v`, most significant first (42_section_reassembly_crc.md R215). -/
def be32 (v : BitVec 32) : Bytes := be16 (v.extractLsb' 16 16) ++ be16 (v.extractLsb' 0 16)

/-- The 6 bytes of a 48-bit value, most significant first. -/
def be48 (v : BitVec 48) : Bytes := be16 (v.extractLsb' 32 16) ++ be32 (v.extractLsb' 0 32)

/-- `PKT_LEN` (00_scope.md R7). -/
def packetLength : Nat := 188

/-- Why a unit is no instruction. -/
inductive DecodeError where
  /-- an `op` outside 30_encoding.md R121 -/
  | unknownOpcode
  /-- `unit > 9` (40_host_commands.md R171) -/
  | unitTooLarge
  /-- a non-zero field the command does not use (30_encoding.md R120) -/
  | unusedFieldSet
  /-- a packet whose first byte is not `SYNC_BYTE` -/
  | noSync
  /-- fewer or more bytes than a packet has -/
  | notOnePacket
  /-- a packet outside the TSPKT48 pattern of PCR.DECODE -/
  | noPcr
  /-- a section of no bytes: it has no `table_id` -/
  | emptySection
  /-- bytes that are not exactly one descriptor -/
  | notOneDescriptor
deriving DecidableEq, Repr

/-! ## Level 0: host command words (30_encoding.md R120, R121) -/

/-- Unit numbers, 00_scope.md R8. -/
def unitOf (b : BitVec 4) : Option UnitId :=
  match b.toNat with
  | 0 => some .pat
  | 1 => some .pmt
  | 2 => some .nit
  | 3 => some .sdt
  | 4 => some .eit
  | 5 => some .tdt
  | 6 => some .ait
  | 7 => some .dsmcc
  | 8 => some .pcr
  | 9 => some .ebu
  | _ => none

/-- The number of a unit, 00_scope.md R8. -/
def unitNumber : UnitId → BitVec 4
  | .pat => 0
  | .pmt => 1
  | .nit => 2
  | .sdt => 3
  | .eit => 4
  | .tdt => 5
  | .ait => 6
  | .dsmcc => 7
  | .pcr => 8
  | .ebu => 9

/-- The fields of a command word below `op`, 30_encoding.md R120. -/
structure CmdFields where
  unit : BitVec 4 := 0
  sel : Byte := 0
  idx1 : BitVec 16 := 0
  idx2 : BitVec 12 := 0
  idx3 : Byte := 0
  arg8 : Byte := 0
deriving DecidableEq, Repr

/-- `op = cmd[63:56]`. -/
def opOf (w : BitVec 64) : Byte := w.extractLsb' 56 8

/-- The fields at their bit positions. -/
def cmdFields (w : BitVec 64) : CmdFields where
  unit := w.extractLsb' 52 4
  sel := w.extractLsb' 44 8
  idx1 := w.extractLsb' 28 16
  idx2 := w.extractLsb' 16 12
  idx3 := w.extractLsb' 8 8
  arg8 := w.extractLsb' 0 8

/-- The word with the given opcode and fields. -/
def cmdWordOf (op : Byte) (f : CmdFields) : BitVec 64 :=
  op ++ f.unit ++ f.sel ++ f.idx1 ++ f.idx2 ++ f.idx3 ++ f.arg8

/-- The word of a `SET_PID_r`: `cmd[12:0]` is the PID, `cmd[55:13]` is 0. -/
def pidWordOf (op : Byte) (pid : Pid) : BitVec 64 := op ++ 0#43 ++ pid

/-- A command whose unused fields must be 0. -/
def onlyIf (unusedAreZero : Bool) (i : Instr) : Except DecodeError Instr :=
  if unusedAreZero then .ok i else .error .unusedFieldSet

/-- A command with a unit operand: `unit > 9` is malformed. -/
def withUnit (b : BitVec 4) (k : UnitId → Except DecodeError Instr) : Except DecodeError Instr :=
  match unitOf b with
  | some u => k u
  | none => .error .unitTooLarge

/-- The command a word stands for, 30_encoding.md R121 with the masks of opcode_table.json. -/
def decodeCmd (w : BitVec 64) : Except DecodeError Instr :=
  let f := cmdFields w
  let pid : Pid := w.extractLsb' 0 13
  let noField := w.extractLsb' 0 56 == 0
  let pidOnly := w.extractLsb' 13 43 == 0
  let unitOnly := w.extractLsb' 0 52 == 0
  match (opOf w).toNat with
  | 0x01 => onlyIf noField .reset
  | 0x02 => onlyIf pidOnly (.setPidDsmcc pid)
  | 0x03 => onlyIf pidOnly (.setPidAit pid)
  | 0x04 => onlyIf pidOnly (.setPidPcr pid)
  | 0x05 => onlyIf pidOnly (.setPidEbu pid)
  | 0x06 => onlyIf noField .getErrors
  | 0x07 => onlyIf noField .getPackets
  | 0x08 => withUnit f.unit fun u => onlyIf unitOnly (.registerCb u)
  | 0x09 => withUnit f.unit fun u => onlyIf unitOnly (.unregisterCb u)
  | 0x10 => withUnit f.unit fun u => onlyIf (f.idx3 == 0 && f.arg8 == 0) (.getField u f.sel f.idx1 f.idx2)
  | 0x11 => withUnit f.unit fun u =>
      onlyIf (f.idx2 == 0 && f.idx3 == 0 && f.arg8 == 0) (.getListLen u f.sel f.idx1)
  | 0x12 => withUnit f.unit fun u =>
      onlyIf (f.idx2 == 0 && f.idx3 == 0 && f.arg8 == 0) (.getDescListLenAll u f.sel f.idx1)
  | 0x13 => withUnit f.unit fun u =>
      onlyIf (f.idx2 == 0 && f.idx3 == 0) (.getDescListLenForTag u f.sel f.idx1 f.arg8)
  | 0x14 => withUnit f.unit fun u =>
      onlyIf (f.idx3 == 0 && f.arg8 == 0) (.getDescByIndex u f.sel f.idx1 f.idx2)
  | 0x15 => withUnit f.unit fun u => onlyIf (f.idx3 == 0) (.getDescByTag u f.sel f.idx1 f.idx2 f.arg8)
  | 0x16 => withUnit f.unit fun u => .ok (.getDescField u f.sel f.idx1 f.idx2 f.idx3 f.arg8)
  | 0x18 => withUnit f.unit fun u => onlyIf (u = .dsmcc && unitOnly) .dsmccIsComplete
  | 0x19 => withUnit f.unit fun u => onlyIf (u = .dsmcc && unitOnly) .dsmccDecode
  | _ => .error .unknownOpcode

/-! ## Level 1: TS packets (30_encoding.md R101 to R104, R111) -/

/-- The header word `H`, 30_encoding.md R101. -/
def headWord (sync : Byte) (h : PktHead) (afc : BitVec 2) : BitVec 32 :=
  sync ++ BitVec.ofBool h.tei ++ BitVec.ofBool h.pusi ++ BitVec.ofBool h.prio ++ h.pid ++ h.tsc ++ afc ++ h.cc

/-- The header fields of `H`. -/
def headOf (w : BitVec 32) : PktHead where
  tei := w.getLsbD 23
  pusi := w.getLsbD 22
  prio := w.getLsbD 21
  pid := w.extractLsb' 8 13
  tsc := w.extractLsb' 6 2
  cc := w.extractLsb' 0 4

/-- The packet instruction of an `afc` value, 30_encoding.md R111. -/
def packetInstr (afc : BitVec 2) (h : PktHead) (rest : Bytes) : Instr :=
  match afc.toNat with
  | 0 => .tspktRsv h rest
  | 1 => .tspktPl h rest
  | 2 => .tspktAf h rest
  | _ => .tspktAfpl h rest

/-- A packet, 30_encoding.md R101. -/
def decodePacket (sync : Byte) (p : Bytes) : Except DecodeError Instr :=
  if p.length ≠ packetLength then .error .notOnePacket
  else if byteAt p 0 ≠ sync then .error .noSync
  else .ok (packetInstr ((u32 p 0).extractLsb' 4 2) (headOf (u32 p 0)) (p.drop 4))

/-- The bytes of a packet. -/
def packetBytes (sync : Byte) (afc : BitVec 2) (h : PktHead) (rest : Bytes) : Bytes :=
  be32 (headWord sync h afc) ++ rest

/-- PCR.DECODE, format TSPKT48: sync byte, `afc[1] = 1`, `PCR_flag = 1` (30_encoding.md R103, R104). -/
def decodePcr (sync : Byte) (p : Bytes) : Except DecodeError Instr :=
  if p.length ≠ packetLength then .error .notOnePacket
  else if byteAt p 0 ≠ sync then .error .noSync
  else if (byteAt p 3).getLsbD 5 && (byteAt p 5).getLsbD 4 then
    .ok (.pcrDecode ((u32 p 0).extractLsb' 8 13) (byteAt p 4) (u48 p 6))
  else .error .noPcr

/-- The packet of a PCR: adaptation field only, no other flag, zero stuffing. -/
def pcrPacketBytes (sync : Byte) (pid : Pid) (afl : Byte) (field : BitVec 48) : Bytes :=
  packetBytes sync 2#2 { tei := false, pusi := false, prio := false, pid := pid, tsc := 0, cc := 0 }
    ([afl, 0x10#8] ++ be48 field ++ List.replicate 176 0#8)

/-! ## Level 2: sections (30_encoding.md R106, R112, R113) -/

/-- `section_length = u16(s,1)[11:0]`, 30_encoding.md R106. -/
def sectionLength (s : Bytes) : BitVec 12 := (u16 s 1).extractLsb' 0 12

/-- The `table_id` values a role accepts, 30_encoding.md R113 with the map of the parameters (10_state.md R46). -/
def acceptedIds (cfg : Config) : Role → List Byte
  | .pat => cfg.tableIds.pat
  | .pmt => cfg.tableIds.pmt
  | .nit => cfg.tableIds.nit
  | .sdt => cfg.tableIds.sdt
  | .eit => cfg.tableIds.eit
  | .tdt => cfg.tableIds.tdt
  | .ait => cfg.tableIds.ait
  | .dsmcc => cfg.dsmccIds

/-- A role accepts a `table_id`, 30_encoding.md R113. -/
def accepted (cfg : Config) (r : Role) (tid : Byte) : Bool := (acceptedIds cfg r).contains tid

/-- The decoder of a role, 30_encoding.md R112. -/
def tableInstr (r : Role) (sec : Bytes) : Instr :=
  match r with
  | .pat => .secPat sec
  | .pmt => .secPmt sec
  | .nit => .secNit sec
  | .sdt => .secSdt sec
  | .eit => .secEit sec
  | .tdt => .secTdt sec
  | .ait => .secAit sec
  | .dsmcc => .secDsmcc sec

/-- The section instruction chosen by (roles of the PID, `table_id`): padding and stuffing first
(42_section_reassembly_crc.md R214, R216), then the matching role that accepts the id (R221). -/
def decodeTable (cfg : Config) (pid : Pid) (roles : List Role) (sec : Bytes) : Except DecodeError Instr :=
  match sec with
  | [] => .error .emptySection
  | tid :: _ =>
    if tid = 0xFF#8 then .ok (.secStuff pid)
    else if cfg.stuffingIds.contains tid then .ok (.secSt sec)
    else match roles.find? (accepted cfg · tid) with
      | some r => .ok (tableInstr r sec)
      | none => .ok (.secOther sec)

/-- One whole extracted section: SEC.ST for a stuffing id, else SEC.CRC (42_section_reassembly_crc.md R216). -/
def decodeExtracted (cfg : Config) (pid : Pid) (sec : Bytes) : Except DecodeError Instr :=
  match sec with
  | [] => .error .emptySection
  | tid :: _ => if cfg.stuffingIds.contains tid then .ok (.secSt sec) else .ok (.secCrc pid sec)

/-! ## Level 3: descriptors (30_encoding.md R109, R114, R115; 44_descriptors.md R301) -/

/-- The rows of a namespace's tag map: R114 for SI, R115 for AIT, in the tables' order. -/
def tagRows (m : DescTags) : Namespace → List (Byte × DescKind)
  | .si => [
      (m.ca, .ca), (m.iso639, .iso639), (m.carouselId, .carouselId), (m.networkName, .networkName),
      (m.serviceList, .serviceList), (m.service, .service), (m.linkage, .linkage), (m.shortEvent, .shortEvent),
      (m.extEvent, .extEvent), (m.component, .component), (m.streamId, .streamId), (m.content, .content),
      (m.parental, .parental), (m.teletext, .teletext), (m.subtitling, .subtitling),
      (m.dataBcastId, .dataBcastId), (m.appSignalling, .appSignalling)]
  | .ait => [(m.application, .application), (m.appName, .appName), (m.transportProtocol, .transportProtocol)]

/-- The kind of a descriptor, a function of namespace and tag: the row of the map, else generic (R303). -/
def kindOf (cfg : Config) (ns : Namespace) (tag : Byte) : DescKind :=
  match (tagRows cfg.descTags ns).find? fun e => e.1 == tag with
  | some e => e.2
  | none => .generic

/-- Kind numbers, 44_descriptors.md R301. -/
def kindNumber : DescKind → BitVec 8
  | .generic => 0
  | .ca => 1
  | .iso639 => 2
  | .carouselId => 3
  | .networkName => 4
  | .serviceList => 5
  | .service => 6
  | .linkage => 7
  | .shortEvent => 8
  | .extEvent => 9
  | .component => 10
  | .streamId => 11
  | .content => 12
  | .parental => 13
  | .teletext => 14
  | .subtitling => 15
  | .dataBcastId => 16
  | .appSignalling => 17
  | .application => 18
  | .appName => 19
  | .transportProtocol => 20

/-- The descriptor instruction of a kind. -/
def descInstr (cfg : Config) (ns : Namespace) (tag : Byte) (body : Bytes) : Instr :=
  match kindOf cfg ns tag with
  | .ca => .descCa body
  | .iso639 => .descIso639 body
  | .carouselId => .descCarouselId body
  | .networkName => .descNetworkName body
  | .serviceList => .descServiceList body
  | .service => .descService body
  | .linkage => .descLinkage body
  | .shortEvent => .descShortEvent body
  | .extEvent => .descExtEvent body
  | .component => .descComponent body
  | .streamId => .descStreamId body
  | .content => .descContent body
  | .parental => .descParental body
  | .teletext => .descTeletext body
  | .subtitling => .descSubtitling body
  | .dataBcastId => .descDataBcastId body
  | .appSignalling => .descAppSignalling body
  | .application => .descApplication body
  | .appName => .descAppName body
  | .transportProtocol => .descTransportProtocol body
  | .generic => .descGeneric ns tag body

/-- The descriptor at the front of a region: its tag, its body and what follows it, or none when no
whole descriptor is there (44_descriptors.md R300). -/
def splitDescriptor : Bytes → Option (Byte × Bytes × Bytes)
  | tag :: len :: rest =>
    if len.toNat ≤ rest.length then some (tag, rest.take len.toNat, rest.drop len.toNat) else none
  | _ => none

/-- Exactly one descriptor. -/
def decodeDescriptor (cfg : Config) (ns : Namespace) (bytes : Bytes) : Except DecodeError Instr :=
  match splitDescriptor bytes with
  | some (tag, body, []) => .ok (descInstr cfg ns tag body)
  | _ => .error .notOneDescriptor

/-- The descriptor instruction at the front of a region, and the rest of the region. -/
def nextDescriptor (cfg : Config) (ns : Namespace) (region : Bytes) : Option (Instr × Bytes) :=
  (splitDescriptor region).map fun (tag, body, rest) => (descInstr cfg ns tag body, rest)

/-- The bytes of a descriptor, 30_encoding.md R109. -/
def descriptorBytes (tag : Byte) (body : Bytes) : Bytes := tag :: BitVec.ofNat 8 body.length :: body

/-! ## The decoder and the encoder -/

/-- The instruction of an EBU event, 45_packet_decoders.md R353. -/
def eventInstr : EbuEvent → Instr
  | .header key => .ebuHeader key
  | .line key row data => .ebuLine key row data

/-- The decoder: the instruction a raw unit stands for, or why it is none. -/
def decode (cfg : Config) : Code → Except DecodeError Instr
  | .cmdWord w => decodeCmd w
  | .batch bytes => .ok (.process bytes)
  | .ack => .ok .ack
  | .packet bytes => decodePacket cfg.syncByte bytes
  | .pcrPacket bytes => decodePcr cfg.syncByte bytes
  | .payloadPacket pid payload => .ok (.secCc pid payload)
  | .payload true pid payload => .ok (.secStart pid payload)
  | .payload false pid payload => .ok (.secAppend pid payload)
  | .drain pid => .ok (.secDrain pid)
  | .extracted pid sec => decodeExtracted cfg pid sec
  | .validated pid sec => .ok (.secDispatch pid sec)
  | .table pid roles sec => decodeTable cfg pid roles sec
  | .descriptor ns bytes => decodeDescriptor cfg ns bytes
  | .event ev => .ok (eventInstr ev)

/-- The encoder: the raw unit of a well-formed instruction, from the same tables. -/
def encode (cfg : Config) : Instr → Code
  | .reset => .cmdWord (cmdWordOf 0x01 (CmdFields.mk 0 0 0 0 0 0))
  | .setPidDsmcc pid => .cmdWord (pidWordOf 0x02 pid)
  | .setPidAit pid => .cmdWord (pidWordOf 0x03 pid)
  | .setPidPcr pid => .cmdWord (pidWordOf 0x04 pid)
  | .setPidEbu pid => .cmdWord (pidWordOf 0x05 pid)
  | .getErrors => .cmdWord (cmdWordOf 0x06 (CmdFields.mk 0 0 0 0 0 0))
  | .getPackets => .cmdWord (cmdWordOf 0x07 (CmdFields.mk 0 0 0 0 0 0))
  | .registerCb u => .cmdWord (cmdWordOf 0x08 (CmdFields.mk (unitNumber u) 0 0 0 0 0))
  | .unregisterCb u => .cmdWord (cmdWordOf 0x09 (CmdFields.mk (unitNumber u) 0 0 0 0 0))
  | .getField u sel i1 i2 => .cmdWord (cmdWordOf 0x10 (CmdFields.mk (unitNumber u) sel i1 i2 0 0))
  | .getListLen u sel i1 => .cmdWord (cmdWordOf 0x11 (CmdFields.mk (unitNumber u) sel i1 0 0 0))
  | .getDescListLenAll u sel i1 => .cmdWord (cmdWordOf 0x12 (CmdFields.mk (unitNumber u) sel i1 0 0 0))
  | .getDescListLenForTag u sel i1 tag => .cmdWord (cmdWordOf 0x13 (CmdFields.mk (unitNumber u) sel i1 0 0 tag))
  | .getDescByIndex u sel i1 i2 => .cmdWord (cmdWordOf 0x14 (CmdFields.mk (unitNumber u) sel i1 i2 0 0))
  | .getDescByTag u sel i1 i2 tag => .cmdWord (cmdWordOf 0x15 (CmdFields.mk (unitNumber u) sel i1 i2 0 tag))
  | .getDescField u sel i1 i2 i3 fid => .cmdWord (cmdWordOf 0x16 (CmdFields.mk (unitNumber u) sel i1 i2 i3 fid))
  | .dsmccIsComplete => .cmdWord (cmdWordOf 0x18 (CmdFields.mk (unitNumber .dsmcc) 0 0 0 0 0))
  | .dsmccDecode => .cmdWord (cmdWordOf 0x19 (CmdFields.mk (unitNumber .dsmcc) 0 0 0 0 0))
  | .process bytes => .batch bytes
  | .ack => .ack
  | .tspktRsv h rest => .packet (packetBytes cfg.syncByte 0 h rest)
  | .tspktPl h rest => .packet (packetBytes cfg.syncByte 1 h rest)
  | .tspktAf h rest => .packet (packetBytes cfg.syncByte 2 h rest)
  | .tspktAfpl h rest => .packet (packetBytes cfg.syncByte 3 h rest)
  | .pcrDecode pid afl field => .pcrPacket (pcrPacketBytes cfg.syncByte pid afl field)
  | .secCc pid payload => .payloadPacket pid payload
  | .secStart pid payload => .payload true pid payload
  | .secAppend pid payload => .payload false pid payload
  | .secDrain pid => .drain pid
  | .secCrc pid sec => .extracted pid sec
  | .secDispatch pid sec => .validated pid sec
  | .secPat sec => .table 0 [.pat] sec
  | .secPmt sec => .table 0 [.pmt] sec
  | .secDsmcc sec => .table 0 [.dsmcc] sec
  | .secNit sec => .table 0 [.nit] sec
  | .secSdt sec => .table 0 [.sdt] sec
  | .secEit sec => .table 0 [.eit] sec
  | .secTdt sec => .table 0 [.tdt] sec
  | .secSt sec => .table 0 [] sec
  | .secAit sec => .table 0 [.ait] sec
  | .secStuff pid => .table pid [] [0xFF#8]
  | .secOther sec => .table 0 [] sec
  | .descCa body => .descriptor .si (descriptorBytes cfg.descTags.ca body)
  | .descIso639 body => .descriptor .si (descriptorBytes cfg.descTags.iso639 body)
  | .descCarouselId body => .descriptor .si (descriptorBytes cfg.descTags.carouselId body)
  | .descNetworkName body => .descriptor .si (descriptorBytes cfg.descTags.networkName body)
  | .descServiceList body => .descriptor .si (descriptorBytes cfg.descTags.serviceList body)
  | .descService body => .descriptor .si (descriptorBytes cfg.descTags.service body)
  | .descLinkage body => .descriptor .si (descriptorBytes cfg.descTags.linkage body)
  | .descShortEvent body => .descriptor .si (descriptorBytes cfg.descTags.shortEvent body)
  | .descExtEvent body => .descriptor .si (descriptorBytes cfg.descTags.extEvent body)
  | .descComponent body => .descriptor .si (descriptorBytes cfg.descTags.component body)
  | .descStreamId body => .descriptor .si (descriptorBytes cfg.descTags.streamId body)
  | .descContent body => .descriptor .si (descriptorBytes cfg.descTags.content body)
  | .descParental body => .descriptor .si (descriptorBytes cfg.descTags.parental body)
  | .descTeletext body => .descriptor .si (descriptorBytes cfg.descTags.teletext body)
  | .descSubtitling body => .descriptor .si (descriptorBytes cfg.descTags.subtitling body)
  | .descDataBcastId body => .descriptor .si (descriptorBytes cfg.descTags.dataBcastId body)
  | .descAppSignalling body => .descriptor .si (descriptorBytes cfg.descTags.appSignalling body)
  | .descApplication body => .descriptor .ait (descriptorBytes cfg.descTags.application body)
  | .descAppName body => .descriptor .ait (descriptorBytes cfg.descTags.appName body)
  | .descTransportProtocol body => .descriptor .ait (descriptorBytes cfg.descTags.transportProtocol body)
  | .descGeneric ns tag body => .descriptor ns (descriptorBytes tag body)
  | .ebuHeader key => .event (.header key)
  | .ebuLine key row data => .event (.line key row data)

/-! ## The words of opcode_table.json

The table numbers a row's bits as one big-endian number, so a word of 32 or 48 bits is laid out most
significant byte first. The table has four formats of 8 bits (SECTION.table_id8, DESC.SI.tag8,
DESC.AIT.tag8, DESC.any.tag8) whose codes overlap, and a word does not say its format: the rows with a
full mask come first, in the table's order, then the others (assumption log 8). -/

/-- Every role: a section taken from the table alone is on a PID whose role accepts it. -/
def allRoles : List Role := [.pat, .pmt, .nit, .sdt, .eit, .tdt, .ait, .dsmcc]

/-- The raw unit of an 8-bit word, the bytes after it zero: a section of length 0 or an empty descriptor. The
table's words are those of the default maps. -/
def tableUnit8 (b : Byte) : Code :=
  if [0x00#8, 0x02#8, 0x3B#8, 0x70#8, 0x72#8, 0x74#8, 0xFF#8].contains b then .table 0 allRoles [b, 0, 0]
  else if kindOf {} .si b ≠ .generic then .descriptor .si [b, 0]
  else if kindOf {} .ait b ≠ .generic then .descriptor .ait [b, 0]
  else .table 0 allRoles [b, 0, 0]

/-- The raw unit whose first `nbits` bits are `w` and whose other bits are 0. -/
def tableUnit (nbits w : Nat) : Option Code :=
  match nbits with
  | 64 => some (.cmdWord (BitVec.ofNat 64 w))
  | 48 => some (.pcrPacket (be48 (BitVec.ofNat 48 w) ++ List.replicate 182 0#8))
  | 32 => some (.packet (be32 (BitVec.ofNat 32 w) ++ List.replicate 184 0#8))
  | 8 => some (tableUnit8 (BitVec.ofNat 8 w))
  | _ => none

/-- The instruction the decoder reads from a word of opcode_table.json. -/
def decodeTableWord (nbits w : Nat) : Option Instr :=
  match tableUnit nbits w with
  | none => none
  | some c =>
    match decode {} c with
    | .ok i => some i
    | .error _ => none

end Sys2Proof
end

