-- ==== Sys2Proof/Machine/State.lean ====
section
/-! DEFINITION. The machine's state (10_state.md R20), everything the spec gives the block and the fields
the model adds, as plain data; the machine right after power-on (10_state.md R47). -/

namespace Sys2Proof.Machine

/-- Nothing in this block faults: "There is no fatal fault and no stuck state in this hardware"
(00_scope.md R11), so the type has no constructor: no meaning and no step can raise one (safe). -/
inductive Fault : Type
deriving DecidableEq, Repr

/-- Why a step has no meaning. -/
inductive Refusal where
  /-- raised by an arm of exec whose instruction has no meaning yet; safe. No arm of this model raises it. -/
  | notModelled (mnemonic : String)
deriving DecidableEq, Repr

/-- The outcome of one step of this machine. -/
abbrev Result (σ : Type) := Host.Outcome σ Fault Refusal

/-! ## Responses, errors, outputs (40_host_commands.md R141, 60_exceptions.md R370) -/

/-- The status of a response; its code is `statusCode`. -/
inductive Status where
  | ok | notFound | rejected | refused
deriving DecidableEq, Repr

/-- A response: `{status, value, bytes}`. -/
structure Response where
  status : Status
  value : BitVec 64 := 0
  bytes : Bytes := []
deriving DecidableEq, Repr

/-- The four counted errors. -/
inductive ErrCode where
  | framingSync | framingTrunc | continuity | integrity
deriving DecidableEq, Repr

/-- What the block puts out, in order (70_reset_and_hazards.md R424), and the model-only error labels of
60_exceptions.md R371. Assumption log 4. -/
inductive Event where
  | response (r : Response)
  | notify (u : UnitId)
  | batchDone (ok : Bool)
  | error (code : ErrCode)
deriving DecidableEq, Repr

/-! ## What the host does (assumption log 3) -/

/-- One action of the host. -/
inductive HostAct where
  /-- a word on the command port -/
  | cmd (w : BitVec 64)
  /-- the bytes of one batch on the stream port -/
  | batch (bytes : Bytes)
  /-- the acknowledgement on the notification port -/
  | ack
  /-- the power-on reset input -/
  | powerOn
deriving DecidableEq, Repr

/-- An action and its moment: `none` waits until the engine is idle or stalled in a notification;
`some n` waits for that or for `n` more steps of a batch, whichever comes first. -/
structure HostItem where
  act : HostAct
  wait : Option Nat := none
deriving DecidableEq, Repr

/-! ## Registers (10_state.md R21 to R30) -/

/-- The engine's phase, R29. -/
inductive Phase where
  | ready | inBatch | inNotify
deriving DecidableEq, Repr

/-- A PID binding register, R24. -/
structure Binding where
  valid : Bool := false
  pid : Pid := 0
deriving DecidableEq, Repr

/-- The four binding registers CSR0 to CSR3, R24. -/
structure Bindings where
  dsmcc : Binding := {}
  ait : Binding := {}
  pcr : Binding := {}
  ebu : Binding := {}
deriving DecidableEq, Repr

/-- The PCR register CSR7, R28. -/
structure Pcr where
  valid : Bool := false
  value : BitVec 42 := 0
deriving DecidableEq, Repr

/-- The header latch, R21. -/
structure Hdr where
  tei : Bool := false
  pusi : Bool := false
  prio : Bool := false
  pid : Pid := 0
  tsc : BitVec 2 := 0
  afc : BitVec 2 := 0
  cc : BitVec 4 := 0
  afl : Byte := 0
  afOk : Bool := false
  afFlags : Byte := 0
  plOff : Byte := 0
deriving DecidableEq, Repr

/-! ## The reassembler contexts (10_state.md R31) -/

/-- The state of one context. -/
inductive CtxState where
  | idle | accumulating
deriving DecidableEq, Repr

/-- One reassembler context; the defaults are its reset value. -/
structure Ctx where
  state : CtxState := .idle
  buf : Bytes := []
  ccValid : Bool := false
  lastCc : BitVec 4 := 0
deriving DecidableEq, Repr

/-! ## Descriptors (10_state.md R43; layouts of 44_descriptors.md R307 to R326)

A field that the body is too short to hold is `none` (44_descriptors.md R302). -/

/-- One item of an extended_event descriptor, R315. -/
structure EventItem where
  description : Bytes
  item : Bytes
deriving DecidableEq, Repr

/-- One name of an application_name descriptor, R325. -/
structure AppName where
  language : BitVec 24
  length : Byte
  name : Bytes
deriving DecidableEq, Repr

/-- One profile of an application descriptor, R324. -/
structure AppProfile where
  profile : BitVec 16
  major : Byte
  minor : Byte
  micro : Byte
deriving DecidableEq, Repr

/-- One entry of a subtitling descriptor, R321. -/
structure Subtitle where
  language : BitVec 24
  kind : Byte
  compositionPage : BitVec 16
  ancillaryPage : BitVec 16
deriving DecidableEq, Repr

/-- One entry of a teletext descriptor, R320. -/
structure TeletextEntry where
  language : BitVec 24
  kind : BitVec 5
  magazine : BitVec 3
  page : Byte
deriving DecidableEq, Repr

/-- The decoded fields of a descriptor, one variant for each kind of 44_descriptors.md R301. -/
inductive DescInfo where
  /-- R303 -/
  | generic
  /-- R307 -/
  | ca (systemId : Option (BitVec 16)) (caPid : Option Pid) (privateData : Option Bytes)
  /-- R308: language code, audio type -/
  | iso639 (entries : List (BitVec 24 × Byte))
  /-- R309 -/
  | carouselId (carouselId : Option (BitVec 32)) (formatId : Option Byte) (privateData : Option Bytes)
  /-- R310 -/
  | networkName (name : Bytes)
  /-- R311: service id, service type -/
  | serviceList (entries : List (BitVec 16 × Byte))
  /-- R312 -/
  | service (serviceType providerLength : Option Byte) (provider : Option Bytes) (nameLength : Option Byte)
      (name : Option Bytes)
  /-- R313 -/
  | linkage (transportStreamId originalNetworkId serviceId : Option (BitVec 16)) (linkageType : Option Byte)
      (privateData : Option Bytes)
  /-- R314 -/
  | shortEvent (language : Option (BitVec 24)) (nameLength : Option Byte) (name : Option Bytes)
      (textLength : Option Byte) (text : Option Bytes)
  /-- R315 -/
  | extEvent (number last : Option (BitVec 4)) (language : Option (BitVec 24)) (lengthOfItems : Option Byte)
      (items : List EventItem) (textLength : Option Byte) (text : Option Bytes)
  /-- R316 -/
  | component (content ext : Option (BitVec 4)) (componentType componentTag : Option Byte)
      (language : Option (BitVec 24)) (text : Option Bytes)
  /-- R317 -/
  | streamId (componentTag : Option Byte)
  /-- R318: nibble level 1, nibble level 2, user byte -/
  | content (entries : List (BitVec 4 × BitVec 4 × Byte))
  /-- R319: country code, rating -/
  | parental (entries : List (BitVec 24 × Byte))
  /-- R320 -/
  | teletext (entries : List TeletextEntry)
  /-- R321 -/
  | subtitling (entries : List Subtitle)
  /-- R322 -/
  | dataBcastId (id : Option (BitVec 16)) (selector : Option Bytes)
  /-- R323: application type, AIT version number -/
  | appSignalling (entries : List (BitVec 15 × BitVec 5))
  /-- R324: `labelCount` is found when the body is not empty -/
  | application (profilesLength : Option Byte) (profiles : List AppProfile) (serviceBound : Option (BitVec 1))
      (visibility : Option (BitVec 2)) (priority : Option Byte) (labels : Bytes)
  /-- R325 -/
  | appName (names : List AppName)
  /-- R326 -/
  | transportProtocol (protocolId : Option (BitVec 16)) (label : Option Byte) (selector : Option Bytes)
deriving DecidableEq, Repr

/-- A descriptor: its envelope, its raw body, its decoded fields (R43, R302; assumption log 6). -/
structure Descriptor where
  tag : Byte
  length : Byte
  body : Bytes
  info : DescInfo
deriving DecidableEq, Repr

/-! ## Table records (10_state.md R34 to R42); the defaults are their reset values -/

/-- The long section header, 30_encoding.md R106 and R107. -/
structure LongHeader where
  tableId : Byte := 0
  sectionSyntaxIndicator : BitVec 1 := 0
  sectionLength : BitVec 12 := 0
  tableIdExtension : BitVec 16 := 0
  versionNumber : BitVec 5 := 0
  currentNextIndicator : BitVec 1 := 0
  sectionNumber : Byte := 0
  lastSectionNumber : Byte := 0
deriving DecidableEq, Repr

/-- An entry of a PAT, R35. -/
structure PatEntry where
  programNumber : BitVec 16
  pid : Pid
deriving DecidableEq, Repr

/-- The PAT record, R35. -/
structure Pat where
  valid : Bool := false
  header : LongHeader := {}
  programs : List PatEntry := []
deriving DecidableEq, Repr

/-- An elementary stream of a PMT, R36. -/
structure PmtStream where
  streamType : Byte
  elementaryPid : Pid
  esInfoLength : BitVec 12
  descriptors : List Descriptor
deriving DecidableEq, Repr

/-- The PMT record, R36. -/
structure Pmt where
  valid : Bool := false
  header : LongHeader := {}
  pcrPid : Pid := 0
  programInfoLength : BitVec 12 := 0
  programInfo : List Descriptor := []
  streams : List PmtStream := []
deriving DecidableEq, Repr

/-- A transport stream of a NIT, R37. -/
structure NitStream where
  transportStreamId : BitVec 16
  originalNetworkId : BitVec 16
  descriptorsLength : BitVec 12
  descriptors : List Descriptor
deriving DecidableEq, Repr

/-- The NIT record, R37. -/
structure Nit where
  valid : Bool := false
  header : LongHeader := {}
  networkDescriptorsLength : BitVec 12 := 0
  networkDescriptors : List Descriptor := []
  streamLoopLength : BitVec 12 := 0
  streams : List NitStream := []
deriving DecidableEq, Repr

/-- A service of an SDT, R38. -/
structure SdtService where
  serviceId : BitVec 16
  eitSchedule : BitVec 1
  eitPresentFollowing : BitVec 1
  runningStatus : BitVec 3
  freeCaMode : BitVec 1
  loopLength : BitVec 12
  descriptors : List Descriptor
deriving DecidableEq, Repr

/-- The SDT record, R38. -/
structure Sdt where
  valid : Bool := false
  header : LongHeader := {}
  originalNetworkId : BitVec 16 := 0
  services : List SdtService := []
deriving DecidableEq, Repr

/-- An event of an EIT, R39. -/
structure EitEvent where
  eventId : BitVec 16
  startTime : BitVec 40
  duration : BitVec 24
  runningStatus : BitVec 3
  freeCaMode : BitVec 1
  loopLength : BitVec 12
  descriptors : List Descriptor
deriving DecidableEq, Repr

/-- The EIT record, R39. -/
structure Eit where
  valid : Bool := false
  header : LongHeader := {}
  transportStreamId : BitVec 16 := 0
  originalNetworkId : BitVec 16 := 0
  segmentLastSectionNumber : Byte := 0
  lastTableId : Byte := 0
  events : List EitEvent := []
deriving DecidableEq, Repr

/-- The TDT record, R40: no long header. -/
structure Tdt where
  valid : Bool := false
  tableId : Byte := 0
  sectionSyntaxIndicator : BitVec 1 := 0
  sectionLength : BitVec 12 := 0
  utcTime : BitVec 40 := 0
deriving DecidableEq, Repr

/-- An application of an AIT, R41. -/
structure AitApp where
  organisationId : BitVec 32
  applicationId : BitVec 16
  controlCode : Byte
  loopLength : BitVec 12
  descriptors : List Descriptor
deriving DecidableEq, Repr

/-- The AIT record, R41: `test_application_flag` and `application_type` are bits of `tableIdExtension`. -/
structure Ait where
  valid : Bool := false
  header : LongHeader := {}
  commonDescriptorsLength : BitVec 12 := 0
  commonDescriptors : List Descriptor := []
  applicationLoopLength : BitVec 12 := 0
  applications : List AitApp := []
deriving DecidableEq, Repr

/-- The state of the DSM-CC collector, R42. -/
inductive DsmccState where
  | collecting | complete
deriving DecidableEq, Repr

/-- The DSM-CC store, R42. -/
structure Dsmcc where
  state : DsmccState := .collecting
  sections : List DsmccEntry := []
deriving DecidableEq, Repr

/-- A line of a teletext page, R44. -/
structure EbuLine where
  row : Byte
  data : Bytes
deriving DecidableEq, Repr

/-- A teletext page, R44; the defaults are those of a key absent from the map. -/
structure EbuPage where
  isOpen : Bool := false
  lines : List EbuLine := []
deriving DecidableEq, Repr

/-! ## The engine's pending work (assumption log 5) -/

/-- One pending micro-operation of the engine. -/
inductive Work where
  /-- decode this unit and run its instruction -/
  | unit (c : Code)
  /-- run the descriptor instructions of this region, one after another (assumption log 6) -/
  | region (ns : Namespace) (r : Bytes)
  /-- the rest of SEC.START once the section in flight is drained: start afresh with these bytes
  (42_section_reassembly_crc.md R212) -/
  | restart (pid : Pid) (new : Bytes)
  /-- the packet is handled: `pc <- pc + 188` (41_packet_deframe_route.md R181) -/
  | endPacket
deriving DecidableEq, Repr

/-- The state, 10_state.md R20. Every default is the power-on value of R47. -/
structure State where
  /-- the parameters of 00_scope.md R9; no step writes them (assumption log 1) -/
  cfg : Config := {}
  /-- CSR0 to CSR3 -/
  bind : Bindings := {}
  /-- CSR4 -/
  cbEn : BitVec 10 := 0
  /-- CSR5 -/
  packets : Nat := 0
  /-- CSR6 -/
  errors : Nat := 0
  /-- CSR7 -/
  pcr : Pcr := {}
  /-- CSR8 -/
  phase : Phase := .ready
  /-- CSR9 -/
  pending : UnitId := .pat
  /-- the key of the page whose notification is outstanding (assumption log 14) -/
  ebuDone : Option EbuKey := none
  /-- SECBUF and the context file, by PID (assumption log 13) -/
  ctx : List (Nat × Ctx) := []
  /-- a trailing partial packet, when `XBUF` is true -/
  carry : Bytes := []
  pat : Pat := {}
  pmt : Pmt := {}
  nit : Nit := {}
  sdt : Sdt := {}
  eit : Eit := {}
  tdt : Tdt := {}
  ait : Ait := {}
  dsmcc : Dsmcc := {}
  /-- the EBU map, by key number (assumption log 13) -/
  ebu : List (Nat × EbuPage) := []
  /-- the header latch -/
  hdr : Hdr := {}
  /-- the stream cursor -/
  pc : Nat := 0
  /-- an error was raised in this batch -/
  batchErr : Bool := false
  /-- IN: the bytes of the batch, after `carry` -/
  stream : Bytes := []
  /-- the engine's continuation, next first (assumption log 5) -/
  work : List Work := []
  /-- the list a descriptor walk has built so far (assumption log 6) -/
  dlist : List Descriptor := []
  /-- what the host will do, next first (assumption log 3) -/
  host : List HostItem := []
  /-- what the block has put out, oldest first (assumption log 4) -/
  out : List Event := []
deriving DecidableEq, Repr

/-- The machine right after power-on: every element at its value of 10_state.md R47; the elements R47
gives no value are 0 or empty (assumption log 7). -/
def State.reset : State := {}

end Sys2Proof.Machine
end

