-- ==== Sys2Proof/Machine/Flags.lean ====
section
/-! DEFINITION. The flags and counters of the block: what sets and tests each one-bit element of
10_state.md R23, the saturating counters of R26 and R27, the continuity test of
42_section_reassembly_crc.md R211. -/

namespace Sys2Proof.Machine

/-- The largest value of a counter, `2^CNT_W - 1`. -/
def counterMax (cfg : Config) : Nat := 2 ^ cfg.cntW - 1

/-- `sat_inc`, 00_scope.md R10. -/
def satInc (cfg : Config) (c : Nat) : Nat := if c < counterMax cfg then c + 1 else c

/-- `batch_ok = NOT batch_err`, 41_packet_deframe_route.md R180. -/
def State.batchOk (s : State) : Bool := !s.batchErr

/-- `bind[r].valid and p = bind[r].pid`, 41_packet_deframe_route.md R184, R187. -/
def Binding.is (b : Binding) (p : Pid) : Bool := b.valid && b.pid == p

/-- `cb_en[u] = 1`, 10_state.md R25. -/
def State.cbEnabled (s : State) (u : UnitId) : Bool := s.cbEn.getLsbD (unitNumber u).toNat

/-- `cb_en` with bit `u` set or cleared, 40_host_commands.md R150, R151. -/
def cbEnWith (cbEn : BitVec 10) (u : UnitId) (on : Bool) : BitVec 10 :=
  let bit := 1#10 <<< (unitNumber u).toNat
  if on then cbEn ||| bit else cbEn &&& ~~~bit

/-- A payload packet whose counter equals the last one: a duplicate, 42_section_reassembly_crc.md R211. -/
def Ctx.duplicate (c : Ctx) (cc : BitVec 4) : Bool := c.ccValid && cc == c.lastCc

/-- A payload packet whose counter is neither the last one nor its successor modulo 16, R211, R375. -/
def Ctx.jump (c : Ctx) (cc : BitVec 4) : Bool := c.ccValid && cc != c.lastCc && cc != c.lastCc + 1

/-- `T.valid` of a table unit; units 7, 8 and 9 have no such gate (40_host_commands.md R152, R161). -/
def State.tableValid (s : State) : UnitId → Bool
  | .pat => s.pat.valid
  | .pmt => s.pmt.valid
  | .nit => s.nit.valid
  | .sdt => s.sdt.valid
  | .eit => s.eit.valid
  | .tdt => s.tdt.valid
  | .ait => s.ait.valid
  | .dsmcc | .pcr | .ebu => true

end Sys2Proof.Machine
end

