-- ==== Sys2Proof/Machine/Ops.lean ====
section
/-! DEFINITION. The named operations over the stores and the registers: sparse stores in one canonical
form, contexts, EBU pages, raising an error (60_exceptions.md R371), raising a notification (R380) and
its acknowledgement (R382), responses (40_host_commands.md R141, R142). -/

namespace Sys2Proof.Machine

/-! ## Sparse stores (assumption log 13)

A store keyed by a number is a list of pairs with strictly rising keys and no entry equal to `d`, what
an unlisted key reads as. -/

/-- The value at key `k`. -/
def SMap.get {α : Type} (d : α) (k : Nat) : List (Nat × α) → α
  | [] => d
  | (j, x) :: l => if j = k then x else SMap.get d k l

/-- The store with `v` at key `k`, in canonical form again. -/
def SMap.set {α : Type} [DecidableEq α] (d : α) (k : Nat) (v : α) : List (Nat × α) → List (Nat × α)
  | [] => if v = d then [] else [(k, v)]
  | (j, x) :: l =>
    if k < j then (if v = d then (j, x) :: l else (k, v) :: (j, x) :: l)
    else if k = j then (if v = d then l else (k, v) :: l)
    else (j, x) :: SMap.set d k v l

/-- The canonical form. -/
def SMap.wf {α : Type} [DecidableEq α] (d : α) : List (Nat × α) → Bool
  | [] => true
  | (j, x) :: l => decide (x ≠ d) && l.all (fun e => decide (j < e.1)) && SMap.wf d l

/-- Every key is below `n`. -/
def SMap.below {α : Type} (n : Nat) (l : List (Nat × α)) : Bool := l.all fun e => decide (e.1 < n)

/-- `ctx[p]`, 10_state.md R31: a total map, every context that is not listed is at its reset value. -/
def State.ctxOf (s : State) (p : Pid) : Ctx := SMap.get {} p.toNat s.ctx

/-- `ctx[p] <- c`. -/
def State.setCtx (s : State) (p : Pid) (c : Ctx) : State := { s with ctx := SMap.set {} p.toNat c s.ctx }

/-- The number of a page key: numeric order is the lexicographic order of (magazine, page, subpage)
(45_packet_decoders.md R358). -/
def keyIndex (k : EbuKey) : Nat := (k.magazine ++ k.page ++ k.subpage).toNat

/-- The key of a number below `2^28`. -/
def keyOfIndex (n : Nat) : EbuKey :=
  let v := BitVec.ofNat 28 n
  { magazine := v.extractLsb' 24 4, page := v.extractLsb' 16 8, subpage := v.extractLsb' 0 16 }

/-- `ebu.page[key]`, 10_state.md R44. -/
def State.pageOf (s : State) (k : EbuKey) : EbuPage := SMap.get {} (keyIndex k) s.ebu

/-- `ebu.page[key] <- pg`. -/
def State.setPage (s : State) (k : EbuKey) (pg : EbuPage) : State :=
  { s with ebu := SMap.set {} (keyIndex k) pg s.ebu }

/-- The canonical form of every sparse store, over the keys that exist: 8192 PIDs (10_state.md R31) and
28-bit page keys (R44). -/
def Memory.wf (s : State) : Bool :=
  SMap.wf {} s.ctx && SMap.below 8192 s.ctx && SMap.wf {} s.ebu && SMap.below (2 ^ 28) s.ebu

/-! ## The engine's continuation -/

/-- Micro-operations the engine runs next, before what is already pending. -/
def State.push (s : State) (w : List Work) : State := { s with work := w ++ s.work }

/-- One more descriptor of the list a walk is building (44_descriptors.md R300). -/
def State.addDescriptor (s : State) (d : Descriptor) : State := { s with dlist := s.dlist ++ [d] }

/-! ## Errors (60_exceptions.md R371) -/

/-- `raise E(code)`: the error is counted, the batch is marked, the label goes to the model's trace, and
nothing else changes: processing continues. -/
def State.raise (s : State) (code : ErrCode) : State :=
  { s with errors := satInc s.cfg s.errors, batchErr := true, out := s.out ++ [.error code] }

/-! ## Notifications (60_exceptions.md R380 to R382) -/

/-- `notify(u)`: with the slot enabled, the unit number is presented and the engine stalls, its
continuation kept in `work`; with it disabled, nothing. -/
def State.notify (s : State) (u : UnitId) : State :=
  if s.cbEnabled u then { s with pending := u, phase := .inNotify, out := s.out ++ [.notify u] } else s

/-- `ebu.page[key].lines <- []` (45_packet_decoders.md R355). -/
def State.clearLines (s : State) (k : EbuKey) : State :=
  s.setPage k { s.pageOf k with lines := [] }

/-- The return from a notification, R382: the completed EBU page is cleared when unit 9 was pending, and
the engine resumes where `notify` stalled it. -/
def State.acknowledge (s : State) : State :=
  match s.pending, s.ebuDone with
  | .ebu, some k => { s.clearLines k with ebuDone := none, phase := .inBatch }
  | _, _ => { s with phase := .inBatch }

/-! ## Responses (40_host_commands.md R141, R142)

R141 says that `value` and `bytes` are meaningful only where the command's rule returns them; the field of an `OK`
response that no rule returns is 0 or empty here (DESIGN CHOICE, unsafe: assumption log 21). -/

/-- The code of a status, R141. -/
def statusCode : Status → Nat
  | .ok => 0
  | .notFound => 1
  | .rejected => 2
  | .refused => 3

/-- `OK` with no value; both fields are the model's 0 and `[]` (assumption log 21). -/
def Response.done : Response := { status := .ok }

/-- `OK` with a scalar; `bytes` is the model's `[]` (assumption log 21). -/
def Response.scalar (v : BitVec 64) : Response := { status := .ok, value := v }

/-- `OK` with a byte string; `value` is the model's 0 (assumption log 21). -/
def Response.string (b : Bytes) : Response := { status := .ok, bytes := b }

/-- `NOT_FOUND`. -/
def Response.notFound : Response := { status := .notFound }

/-- `REJECTED`. -/
def Response.rejected : Response := { status := .rejected }

/-- `REFUSED`. -/
def Response.refused : Response := { status := .refused }

/-- The response goes to the response port. -/
def State.respond (s : State) (r : Response) : State := { s with out := s.out ++ [.response r] }

/-- A command that is legal in `READY` only, R142: it gives the state `t`, or it is refused and nothing
changes. -/
def inReady (s t : State) : Result State := .next (if s.phase = .ready then t else s.respond .refused)

/-- A read-only command, legal in `READY` and in `IN_NOTIFY`, R142: a response and no state change. -/
def readCmd (s : State) (r : Response) : Result State :=
  .next (s.respond (if s.phase = .inBatch then .refused else r))

/-! ## Power-on reset (70_reset_and_hazards.md R410; assumption log 11) -/

/-- The reset input: every element takes its power-on value; the parameters, the host's plans and what
was already put out are not the block's to clear. -/
def State.powerOn (s : State) : State := { State.reset with cfg := s.cfg, host := s.host, out := s.out }

end Sys2Proof.Machine
end

