-- ==== Sys2Proof/Machine/Descriptors.lean ====
section
/-! DEFINITION. The descriptor decoders of 44_descriptors.md: the fields of each kind as functions of the
body (R302 to R326), the walk over a region (R300), and the meaning of each descriptor instruction: one
turn of the walk, which appends the decoded descriptor to the list being built. -/

namespace Sys2Proof.Machine

/-! ## Field readers (R302)

A field is found exactly when the body has the bytes it needs. -/

/-- A field that needs a body of at least `n` bytes. -/
def need {α : Type} (n : Nat) (b : Bytes) (v : α) : Option α := if n ≤ b.length then some v else none

/-- A loop of elements of `e` bytes from offset `a` to the end of the body: `floor((L - a) / e)` elements. -/
def loopOf {α : Type} (b : Bytes) (a e : Nat) (f : Nat → α) : List α :=
  (List.range ((b.length - a) / e)).map fun i => f (a + e * i)

/-! ## Layouts (R307 to R326) -/

/-- R307 -/
def caInfo (b : Bytes) : DescInfo :=
  .ca (need 2 b (u16 b 0)) (need 4 b ((u16 b 2).extractLsb' 0 13)) (need 4 b (b.drop 4))

/-- R308 -/
def iso639Info (b : Bytes) : DescInfo := .iso639 (loopOf b 0 4 fun o => (u24 b o, byteAt b (o + 3)))

/-- R309 -/
def carouselIdInfo (b : Bytes) : DescInfo :=
  .carouselId (need 4 b (u32 b 0)) (need 5 b (byteAt b 4)) (need 5 b (b.drop 5))

/-- R310 -/
def networkNameInfo (b : Bytes) : DescInfo := .networkName b

/-- R311 -/
def serviceListInfo (b : Bytes) : DescInfo := .serviceList (loopOf b 0 3 fun o => (u16 b o, byteAt b (o + 2)))

/-- R312: `pl` is byte 1, `sl` the byte after the provider name. -/
def serviceInfo (b : Bytes) : DescInfo :=
  let pl := (byteAt b 1).toNat
  let sl := (byteAt b (2 + pl)).toNat
  .service (need 1 b (byteAt b 0)) (need 2 b (byteAt b 1))
    (if 2 ≤ b.length then need (2 + pl) b (slice b 2 (2 + pl)) else none)
    (if 2 ≤ b.length then need (3 + pl) b (byteAt b (2 + pl)) else none)
    (if 2 ≤ b.length ∧ 3 + pl ≤ b.length then need (3 + pl + sl) b (slice b (3 + pl) (3 + pl + sl)) else none)

/-- R313 -/
def linkageInfo (b : Bytes) : DescInfo :=
  .linkage (need 2 b (u16 b 0)) (need 4 b (u16 b 2)) (need 6 b (u16 b 4)) (need 7 b (byteAt b 6)) (need 7 b (b.drop 7))

/-- R314: `nl` is byte 3, `tl` the byte after the event name. -/
def shortEventInfo (b : Bytes) : DescInfo :=
  let nl := (byteAt b 3).toNat
  let tl := (byteAt b (4 + nl)).toNat
  .shortEvent (need 3 b (u24 b 0)) (need 4 b (byteAt b 3))
    (if 4 ≤ b.length then need (4 + nl) b (slice b 4 (4 + nl)) else none)
    (if 4 ≤ b.length then need (5 + nl) b (byteAt b (4 + nl)) else none)
    (if 4 ≤ b.length ∧ 5 + nl ≤ b.length then need (5 + nl + tl) b (slice b (5 + nl) (5 + nl + tl)) else none)

/-- The item walk of R315 from offset `o` to `iend`. -/
def itemWalk (b : Bytes) (iend : Nat) : Nat → Nat → List EventItem
  | 0, _ => []
  | fuel + 1, o =>
    let dl := (byteAt b o).toNat
    let il := (byteAt b (o + 1 + dl)).toNat
    if o < iend ∧ o + 1 + dl + 1 ≤ iend ∧ o + 2 + dl + il ≤ iend then
      { description := slice b (o + 1) (o + 1 + dl), item := slice b (o + 2 + dl) (o + 2 + dl + il) } ::
        itemWalk b iend fuel (o + 2 + dl + il)
    else []

/-- R315: `loi` is byte 4, `tl` the byte after the items. -/
def extEventInfo (b : Bytes) : DescInfo :=
  let loi := (byteAt b 4).toNat
  let tl := (byteAt b (5 + loi)).toNat
  .extEvent (need 1 b ((byteAt b 0).extractLsb' 4 4)) (need 1 b ((byteAt b 0).extractLsb' 0 4)) (need 4 b (u24 b 1))
    (need 5 b (byteAt b 4))
    (if 5 ≤ b.length then itemWalk b (min (5 + loi) b.length) b.length 5 else [])
    (if 5 ≤ b.length then need (6 + loi) b (byteAt b (5 + loi)) else none)
    (if 5 ≤ b.length ∧ 6 + loi ≤ b.length then need (6 + loi + tl) b (slice b (6 + loi) (6 + loi + tl)) else none)

/-- R316 -/
def componentInfo (b : Bytes) : DescInfo :=
  .component (need 1 b ((byteAt b 0).extractLsb' 0 4)) (need 1 b ((byteAt b 0).extractLsb' 4 4))
    (need 2 b (byteAt b 1)) (need 3 b (byteAt b 2)) (need 6 b (u24 b 3)) (need 6 b (b.drop 6))

/-- R317 -/
def streamIdInfo (b : Bytes) : DescInfo := .streamId (need 1 b (byteAt b 0))

/-- R318 -/
def contentInfo (b : Bytes) : DescInfo :=
  .content (loopOf b 0 2 fun o => ((byteAt b o).extractLsb' 4 4, (byteAt b o).extractLsb' 0 4, byteAt b (o + 1)))

/-- R319 -/
def parentalInfo (b : Bytes) : DescInfo := .parental (loopOf b 0 4 fun o => (u24 b o, byteAt b (o + 3)))

/-- R320 -/
def teletextInfo (b : Bytes) : DescInfo :=
  .teletext (loopOf b 0 5 fun o =>
    { language := u24 b o, kind := (byteAt b (o + 3)).extractLsb' 3 5,
      magazine := (byteAt b (o + 3)).extractLsb' 0 3, page := byteAt b (o + 4) })

/-- R321 -/
def subtitlingInfo (b : Bytes) : DescInfo :=
  .subtitling (loopOf b 0 8 fun o =>
    { language := u24 b o, kind := byteAt b (o + 3), compositionPage := u16 b (o + 4), ancillaryPage := u16 b (o + 6) })

/-- R322 -/
def dataBcastIdInfo (b : Bytes) : DescInfo := .dataBcastId (need 2 b (u16 b 0)) (need 2 b (b.drop 2))

/-- R323 -/
def appSignallingInfo (b : Bytes) : DescInfo :=
  .appSignalling (loopOf b 0 3 fun o => ((u16 b o).extractLsb' 0 15, (byteAt b (o + 2)).extractLsb' 0 5))

/-- R324: `pl` is byte 0; `floor(min(pl, L-1) / 5)` profiles; every field needs `L >= 1`. -/
def applicationInfo (b : Bytes) : DescInfo :=
  let pl := (byteAt b 0).toNat
  .application (need 1 b (byteAt b 0))
    ((List.range (min pl (b.length - 1) / 5)).map fun i =>
      { profile := u16 b (1 + 5 * i), major := byteAt b (3 + 5 * i), minor := byteAt b (4 + 5 * i),
        micro := byteAt b (5 + 5 * i) })
    (if 1 ≤ b.length then need (2 + pl) b ((byteAt b (1 + pl)).extractLsb' 7 1) else none)
    (if 1 ≤ b.length then need (2 + pl) b ((byteAt b (1 + pl)).extractLsb' 5 2) else none)
    (if 1 ≤ b.length then need (3 + pl) b (byteAt b (2 + pl)) else none)
    (b.drop (3 + pl))

/-- The name walk of R325 from offset `o`. -/
def nameWalk (b : Bytes) : Nat → Nat → List AppName
  | 0, _ => []
  | fuel + 1, o =>
    let nl := (byteAt b (o + 3)).toNat
    if o + 4 ≤ b.length ∧ o + 4 + nl ≤ b.length then
      { language := u24 b o, length := byteAt b (o + 3), name := slice b (o + 4) (o + 4 + nl) } ::
        nameWalk b fuel (o + 4 + nl)
    else []

/-- R325 -/
def appNameInfo (b : Bytes) : DescInfo := .appName (nameWalk b b.length 0)

/-- R326 -/
def transportProtocolInfo (b : Bytes) : DescInfo :=
  .transportProtocol (need 2 b (u16 b 0)) (need 3 b (byteAt b 2)) (need 3 b (b.drop 3))

/-! ## The walk (R300, R301) -/

/-- The decoded fields of a body, by the kind of its (namespace, tag), R301. -/
def infoOf (cfg : Config) (ns : Namespace) (tag : Byte) (b : Bytes) : DescInfo :=
  match kindOf cfg ns tag with
  | .ca => caInfo b
  | .iso639 => iso639Info b
  | .carouselId => carouselIdInfo b
  | .networkName => networkNameInfo b
  | .serviceList => serviceListInfo b
  | .service => serviceInfo b
  | .linkage => linkageInfo b
  | .shortEvent => shortEventInfo b
  | .extEvent => extEventInfo b
  | .component => componentInfo b
  | .streamId => streamIdInfo b
  | .content => contentInfo b
  | .parental => parentalInfo b
  | .teletext => teletextInfo b
  | .subtitling => subtitlingInfo b
  | .dataBcastId => dataBcastIdInfo b
  | .appSignalling => appSignallingInfo b
  | .application => applicationInfo b
  | .appName => appNameInfo b
  | .transportProtocol => transportProtocolInfo b
  | .generic => .generic

/-- The descriptor with the given tag, body and fields. -/
def mkDescriptor (tag : Byte) (b : Bytes) (info : DescInfo) : Descriptor :=
  { tag := tag, length := BitVec.ofNat 8 b.length, body := b, info := info }

/-- `DescList(r, ns)` over at most `fuel` descriptors, R300. -/
def descListFuel (cfg : Config) (ns : Namespace) : Nat → Bytes → List Descriptor
  | 0, _ => []
  | fuel + 1, r =>
    match splitDescriptor r with
    | none => []
    | some (tag, body, rest) => mkDescriptor tag body (infoOf cfg ns tag body) :: descListFuel cfg ns fuel rest

/-- `DescList(r, ns)`, R300: every turn takes at least 2 bytes, so the region's length is enough turns. -/
def descList (cfg : Config) (ns : Namespace) (r : Bytes) : List Descriptor := descListFuel cfg ns r.length r

/-! ## The descriptor instructions

Each is one turn of the walk of R300: "slice exactly `length` bytes as body, dispatch by tag to the
matching Descriptor subtype's field decoder ..., append to the ordered list". -/

/-- `DESC.CA`, R307. -/
def execDescCa (body : Bytes) (s : State) : Result State :=
  .next (s.addDescriptor (mkDescriptor s.cfg.descTags.ca body (caInfo body)))

/-- `DESC.ISO639`, R308. -/
def execDescIso639 (body : Bytes) (s : State) : Result State :=
  .next (s.addDescriptor (mkDescriptor s.cfg.descTags.iso639 body (iso639Info body)))

/-- `DESC.CAROUSEL_ID`, R309. -/
def execDescCarouselId (body : Bytes) (s : State) : Result State :=
  .next (s.addDescriptor (mkDescriptor s.cfg.descTags.carouselId body (carouselIdInfo body)))

/-- `DESC.NETWORK_NAME`, R310. -/
def execDescNetworkName (body : Bytes) (s : State) : Result State :=
  .next (s.addDescriptor (mkDescriptor s.cfg.descTags.networkName body (networkNameInfo body)))

/-- `DESC.SERVICE_LIST`, R311. -/
def execDescServiceList (body : Bytes) (s : State) : Result State :=
  .next (s.addDescriptor (mkDescriptor s.cfg.descTags.serviceList body (serviceListInfo body)))

/-- `DESC.SERVICE`, R312. -/
def execDescService (body : Bytes) (s : State) : Result State :=
  .next (s.addDescriptor (mkDescriptor s.cfg.descTags.service body (serviceInfo body)))

/-- `DESC.LINKAGE`, R313. -/
def execDescLinkage (body : Bytes) (s : State) : Result State :=
  .next (s.addDescriptor (mkDescriptor s.cfg.descTags.linkage body (linkageInfo body)))

/-- `DESC.SHORT_EVENT`, R314. -/
def execDescShortEvent (body : Bytes) (s : State) : Result State :=
  .next (s.addDescriptor (mkDescriptor s.cfg.descTags.shortEvent body (shortEventInfo body)))

/-- `DESC.EXT_EVENT`, R315. -/
def execDescExtEvent (body : Bytes) (s : State) : Result State :=
  .next (s.addDescriptor (mkDescriptor s.cfg.descTags.extEvent body (extEventInfo body)))

/-- `DESC.COMPONENT`, R316. -/
def execDescComponent (body : Bytes) (s : State) : Result State :=
  .next (s.addDescriptor (mkDescriptor s.cfg.descTags.component body (componentInfo body)))

/-- `DESC.STREAM_ID`, R317. -/
def execDescStreamId (body : Bytes) (s : State) : Result State :=
  .next (s.addDescriptor (mkDescriptor s.cfg.descTags.streamId body (streamIdInfo body)))

/-- `DESC.CONTENT`, R318. -/
def execDescContent (body : Bytes) (s : State) : Result State :=
  .next (s.addDescriptor (mkDescriptor s.cfg.descTags.content body (contentInfo body)))

/-- `DESC.PARENTAL`, R319. -/
def execDescParental (body : Bytes) (s : State) : Result State :=
  .next (s.addDescriptor (mkDescriptor s.cfg.descTags.parental body (parentalInfo body)))

/-- `DESC.TELETEXT`, R320. -/
def execDescTeletext (body : Bytes) (s : State) : Result State :=
  .next (s.addDescriptor (mkDescriptor s.cfg.descTags.teletext body (teletextInfo body)))

/-- `DESC.SUBTITLING`, R321. -/
def execDescSubtitling (body : Bytes) (s : State) : Result State :=
  .next (s.addDescriptor (mkDescriptor s.cfg.descTags.subtitling body (subtitlingInfo body)))

/-- `DESC.DATA_BCAST_ID`, R322. -/
def execDescDataBcastId (body : Bytes) (s : State) : Result State :=
  .next (s.addDescriptor (mkDescriptor s.cfg.descTags.dataBcastId body (dataBcastIdInfo body)))

/-- `DESC.APP_SIGNALLING`, R323. -/
def execDescAppSignalling (body : Bytes) (s : State) : Result State :=
  .next (s.addDescriptor (mkDescriptor s.cfg.descTags.appSignalling body (appSignallingInfo body)))

/-- `DESC.APPLICATION`, R324. -/
def execDescApplication (body : Bytes) (s : State) : Result State :=
  .next (s.addDescriptor (mkDescriptor s.cfg.descTags.application body (applicationInfo body)))

/-- `DESC.APP_NAME`, R325. -/
def execDescAppName (body : Bytes) (s : State) : Result State :=
  .next (s.addDescriptor (mkDescriptor s.cfg.descTags.appName body (appNameInfo body)))

/-- `DESC.TRANSPORT_PROTOCOL`, R326. -/
def execDescTransportProtocol (body : Bytes) (s : State) : Result State :=
  .next (s.addDescriptor (mkDescriptor s.cfg.descTags.transportProtocol body (transportProtocolInfo body)))

/-- `DESC.GENERIC`, R303: tag, length and raw body, no field of its own. -/
def execDescGeneric (_ns : Namespace) (tag : Byte) (body : Bytes) (s : State) : Result State :=
  .next (s.addDescriptor (mkDescriptor tag body .generic))

end Sys2Proof.Machine
end

