-- ==== Sys2Proof/Machine/Operands.lean ====
section
/-! DEFINITION. What the host's commands name: table fields by selector (40_host_commands.md R152 to R161),
lists (R153), descriptor lists by path (section 7), descriptors by ordinal and by tag
(44_descriptors.md R304 to R306), descriptor fields by field id (R302, R327); and the byte read of the
stores of 10_state.md R33. -/

namespace Sys2Proof.Machine

/-- What a read finds: a scalar or a byte string. -/
inductive FieldVal where
  | num (v : BitVec 64)
  | str (b : Bytes)
deriving DecidableEq, Repr

/-- The response of a read: what was found, or `NOT_FOUND` (40_host_commands.md R141). -/
def found : Option FieldVal → Response
  | some (.num v) => .scalar v
  | some (.str b) => .string b
  | none => .notFound

/-- A scalar, zero-extended to 64 bits. -/
def numOf {w : Nat} (v : BitVec w) : FieldVal := .num (v.setWidth 64)

/-- A count. -/
def countOf (n : Nat) : FieldVal := .num (BitVec.ofNat 64 n)

/-! ## Descriptor fields (44_descriptors.md R302, R327) -/

/-- A scalar field: found only at element index 0. -/
def scalarAt {w : Nat} (i : Nat) (v : Option (BitVec w)) : Option FieldVal :=
  if i = 0 then v.map numOf else none

/-- A byte-string field outside any loop: found only at element index 0. R302 says so of scalar fields and of
`0xFF`; for the other byte strings, which it gives no other element, it is the model's (DESIGN CHOICE, unsafe:
assumption log 23). -/
def stringAt (i : Nat) (v : Option Bytes) : Option FieldVal := if i = 0 then v.map .str else none

/-- The count of a loop. -/
def countAt (i n : Nat) : Option FieldVal := if i = 0 then some (countOf n) else none

/-- Element `i` of a loop. -/
def elemAt {α : Type} {w : Nat} (l : List α) (i : Nat) (f : α → BitVec w) : Option FieldVal :=
  l[i]?.map fun x => numOf (f x)

/-- Byte-string element `i` of a loop. -/
def strElemAt {α : Type} (l : List α) (i : Nat) (f : α → Bytes) : Option FieldVal := l[i]?.map fun x => .str (f x)

/-- The kind of a decoded descriptor. -/
def kindOfInfo : DescInfo → DescKind
  | .generic => .generic
  | .ca .. => .ca
  | .iso639 .. => .iso639
  | .carouselId .. => .carouselId
  | .networkName .. => .networkName
  | .serviceList .. => .serviceList
  | .service .. => .service
  | .linkage .. => .linkage
  | .shortEvent .. => .shortEvent
  | .extEvent .. => .extEvent
  | .component .. => .component
  | .streamId .. => .streamId
  | .content .. => .content
  | .parental .. => .parental
  | .teletext .. => .teletext
  | .subtitling .. => .subtitling
  | .dataBcastId .. => .dataBcastId
  | .appSignalling .. => .appSignalling
  | .application .. => .application
  | .appName .. => .appName
  | .transportProtocol .. => .transportProtocol

/-- The field ids of each kind, 44_descriptors.md R327: the field `fid` at element index `i`. -/
def infoField (info : DescInfo) (fid i : Nat) : Option FieldVal :=
  match info with
  | .generic => none
  | .ca systemId caPid privateData =>
    match fid with
    | 0x00 => scalarAt i systemId
    | 0x01 => scalarAt i caPid
    | 0x02 => stringAt i privateData
    | _ => none
  | .iso639 entries =>
    match fid with
    | 0x00 => countAt i entries.length
    | 0x01 => elemAt entries i (·.1)
    | 0x02 => elemAt entries i (·.2)
    | _ => none
  | .carouselId carouselId formatId privateData =>
    match fid with
    | 0x00 => scalarAt i carouselId
    | 0x01 => scalarAt i formatId
    | 0x02 => stringAt i privateData
    | _ => none
  | .networkName name =>
    match fid with
    | 0x00 => stringAt i (some name)
    | _ => none
  | .serviceList entries =>
    match fid with
    | 0x00 => countAt i entries.length
    | 0x01 => elemAt entries i (·.1)
    | 0x02 => elemAt entries i (·.2)
    | _ => none
  | .service serviceType providerLength provider nameLength name =>
    match fid with
    | 0x00 => scalarAt i serviceType
    | 0x01 => scalarAt i providerLength
    | 0x02 => stringAt i provider
    | 0x03 => scalarAt i nameLength
    | 0x04 => stringAt i name
    | _ => none
  | .linkage transportStreamId originalNetworkId serviceId linkageType privateData =>
    match fid with
    | 0x00 => scalarAt i transportStreamId
    | 0x01 => scalarAt i originalNetworkId
    | 0x02 => scalarAt i serviceId
    | 0x03 => scalarAt i linkageType
    | 0x04 => stringAt i privateData
    | _ => none
  | .shortEvent language nameLength name textLength text =>
    match fid with
    | 0x00 => scalarAt i language
    | 0x01 => scalarAt i nameLength
    | 0x02 => stringAt i name
    | 0x03 => scalarAt i textLength
    | 0x04 => stringAt i text
    | _ => none
  | .extEvent number last language lengthOfItems items textLength text =>
    match fid with
    | 0x00 => scalarAt i number
    | 0x01 => scalarAt i last
    | 0x02 => scalarAt i language
    | 0x03 => scalarAt i lengthOfItems
    | 0x04 => if lengthOfItems.isSome then countAt i items.length else none
    | 0x05 => strElemAt items i (·.description)
    | 0x06 => strElemAt items i (·.item)
    | 0x07 => scalarAt i textLength
    | 0x08 => stringAt i text
    | _ => none
  | .component content ext componentType componentTag language text =>
    match fid with
    | 0x00 => scalarAt i content
    | 0x01 => scalarAt i componentType
    | 0x02 => scalarAt i componentTag
    | 0x03 => scalarAt i language
    | 0x04 => stringAt i text
    | 0x05 => scalarAt i ext
    | _ => none
  | .streamId componentTag =>
    match fid with
    | 0x00 => scalarAt i componentTag
    | _ => none
  | .content entries =>
    match fid with
    | 0x00 => countAt i entries.length
    | 0x01 => elemAt entries i (·.1)
    | 0x02 => elemAt entries i (·.2.1)
    | 0x03 => elemAt entries i (·.2.2)
    | _ => none
  | .parental entries =>
    match fid with
    | 0x00 => countAt i entries.length
    | 0x01 => elemAt entries i (·.1)
    | 0x02 => elemAt entries i (·.2)
    | _ => none
  | .teletext entries =>
    match fid with
    | 0x00 => countAt i entries.length
    | 0x01 => elemAt entries i (·.language)
    | 0x02 => elemAt entries i (·.kind)
    | 0x03 => elemAt entries i (·.magazine)
    | 0x04 => elemAt entries i (·.page)
    | _ => none
  | .subtitling entries =>
    match fid with
    | 0x00 => countAt i entries.length
    | 0x01 => elemAt entries i (·.language)
    | 0x02 => elemAt entries i (·.kind)
    | 0x03 => elemAt entries i (·.compositionPage)
    | 0x04 => elemAt entries i (·.ancillaryPage)
    | _ => none
  | .dataBcastId id selector =>
    match fid with
    | 0x00 => scalarAt i id
    | 0x01 => stringAt i selector
    | _ => none
  | .appSignalling entries =>
    match fid with
    | 0x00 => countAt i entries.length
    | 0x01 => elemAt entries i (·.1)
    | 0x02 => elemAt entries i (·.2)
    | _ => none
  | .application profilesLength profiles serviceBound visibility priority labels =>
    match fid with
    | 0x00 => scalarAt i profilesLength
    | 0x01 => if profilesLength.isSome then countAt i profiles.length else none
    | 0x02 => elemAt profiles i (·.profile)
    | 0x03 => elemAt profiles i (·.major)
    | 0x04 => elemAt profiles i (·.minor)
    | 0x05 => elemAt profiles i (·.micro)
    | 0x06 => scalarAt i serviceBound
    | 0x07 => scalarAt i visibility
    | 0x08 => scalarAt i priority
    | 0x09 => if profilesLength.isSome then countAt i labels.length else none
    | 0x0A => elemAt labels i id
    | _ => none
  | .appName names =>
    match fid with
    | 0x00 => countAt i names.length
    | 0x01 => elemAt names i (·.language)
    | 0x02 => elemAt names i (·.length)
    | 0x03 => strElemAt names i (·.name)
    | _ => none
  | .transportProtocol protocolId label selector =>
    match fid with
    | 0x00 => scalarAt i protocolId
    | 0x01 => scalarAt i label
    | 0x02 => stringAt i selector
    | _ => none

/-- The field function of 44_descriptors.md R302: `0xF0` to `0xFF` exist for every descriptor. -/
def descField (d : Descriptor) (fid : Byte) (i : Nat) : Option FieldVal :=
  match fid.toNat with
  | 0xF0 => scalarAt i (some d.tag)
  | 0xF1 => scalarAt i (some d.length)
  | 0xF2 => scalarAt i (some (kindNumber (kindOfInfo d.info)))
  | 0xFF => stringAt i (some d.body)
  | n => infoField d.info n i

/-! ## Table fields (40_host_commands.md R152 to R161) -/

/-- Selectors `0x00` to `0x07` of the units with a long header, R154. -/
def headerField (h : LongHeader) (sel : Nat) : Option FieldVal :=
  match sel with
  | 0x00 => some (numOf h.tableId)
  | 0x01 => some (numOf h.sectionSyntaxIndicator)
  | 0x02 => some (numOf h.sectionLength)
  | 0x03 => some (numOf h.tableIdExtension)
  | 0x04 => some (numOf h.versionNumber)
  | 0x05 => some (numOf h.currentNextIndicator)
  | 0x06 => some (numOf h.sectionNumber)
  | 0x07 => some (numOf h.lastSectionNumber)
  | _ => none

/-- `test_application_flag = table_id_extension[15]`, 10_state.md R41. -/
def testApplicationFlag (a : Ait) : BitVec 1 := a.header.tableIdExtension.extractLsb' 15 1

/-- `application_type = table_id_extension[14:0]`, 10_state.md R41. -/
def applicationType (a : Ait) : BitVec 15 := a.header.tableIdExtension.extractLsb' 0 15

/-- The scalar a selector names, R154 to R161; none when the unit has no such scalar, and for a PCR that
was never received. -/
def scalarOf (s : State) (u : UnitId) (sel : Byte) : Option FieldVal :=
  match u with
  | .pat => headerField s.pat.header sel.toNat
  | .pmt =>
    match sel.toNat with
    | 0x08 => some (numOf s.pmt.pcrPid)
    | 0x09 => some (numOf s.pmt.programInfoLength)
    | n => headerField s.pmt.header n
  | .nit =>
    match sel.toNat with
    | 0x08 => some (numOf s.nit.networkDescriptorsLength)
    | 0x09 => some (numOf s.nit.streamLoopLength)
    | n => headerField s.nit.header n
  | .sdt =>
    match sel.toNat with
    | 0x08 => some (numOf s.sdt.originalNetworkId)
    | n => headerField s.sdt.header n
  | .eit =>
    match sel.toNat with
    | 0x08 => some (numOf s.eit.transportStreamId)
    | 0x09 => some (numOf s.eit.originalNetworkId)
    | 0x0A => some (numOf s.eit.segmentLastSectionNumber)
    | 0x0B => some (numOf s.eit.lastTableId)
    | n => headerField s.eit.header n
  | .tdt =>
    match sel.toNat with
    | 0x00 => some (numOf s.tdt.tableId)
    | 0x01 => some (numOf s.tdt.sectionSyntaxIndicator)
    | 0x02 => some (numOf s.tdt.sectionLength)
    | 0x08 => some (numOf s.tdt.utcTime)
    | _ => none
  | .ait =>
    match sel.toNat with
    | 0x03 => some (numOf (applicationType s.ait))
    | 0x08 => some (numOf (testApplicationFlag s.ait))
    | 0x09 => some (numOf s.ait.commonDescriptorsLength)
    | 0x0A => some (numOf s.ait.applicationLoopLength)
    | n => headerField s.ait.header n
  | .dsmcc =>
    match sel.toNat with
    | 0x08 => some (.num (if s.dsmcc.state = .complete then 1 else 0))
    | _ => none
  | .pcr =>
    match sel.toNat with
    | 0x08 => if s.pcr.valid then some (numOf s.pcr.value) else none
    | _ => none
  | .ebu => none

/-- The selectors that name a scalar of the unit, R154 to R161. -/
def scalarSel (u : UnitId) (sel : Byte) : Bool :=
  match u with
  | .pat => sel ≤ 0x07#8
  | .pmt | .nit => sel ≤ 0x09#8
  | .sdt => sel ≤ 0x08#8
  | .eit => sel ≤ 0x0B#8
  | .tdt => sel ≤ 0x02#8 || sel == 0x08#8
  | .ait => sel ≤ 0x0A#8
  | .dsmcc | .pcr => sel == 0x08#8
  | .ebu => false

/-- Entry `i` of the unit's main list, seen through a per-entry selector, R154 to R161. -/
def entryOf (s : State) (u : UnitId) (sel : Byte) (i : Nat) : Option FieldVal :=
  match u with
  | .pat =>
    match sel.toNat with
    | 0x10 => elemAt s.pat.programs i (·.programNumber)
    | 0x11 => elemAt s.pat.programs i (·.pid)
    | _ => none
  | .pmt =>
    match sel.toNat with
    | 0x10 => elemAt s.pmt.streams i (·.streamType)
    | 0x11 => elemAt s.pmt.streams i (·.elementaryPid)
    | 0x12 => elemAt s.pmt.streams i (·.esInfoLength)
    | _ => none
  | .nit =>
    match sel.toNat with
    | 0x10 => elemAt s.nit.streams i (·.transportStreamId)
    | 0x11 => elemAt s.nit.streams i (·.originalNetworkId)
    | 0x12 => elemAt s.nit.streams i (·.descriptorsLength)
    | _ => none
  | .sdt =>
    match sel.toNat with
    | 0x10 => elemAt s.sdt.services i (·.serviceId)
    | 0x11 => elemAt s.sdt.services i (·.eitSchedule)
    | 0x12 => elemAt s.sdt.services i (·.eitPresentFollowing)
    | 0x13 => elemAt s.sdt.services i (·.runningStatus)
    | 0x14 => elemAt s.sdt.services i (·.freeCaMode)
    | 0x15 => elemAt s.sdt.services i (·.loopLength)
    | _ => none
  | .eit =>
    match sel.toNat with
    | 0x10 => elemAt s.eit.events i (·.eventId)
    | 0x11 => elemAt s.eit.events i (·.startTime)
    | 0x12 => elemAt s.eit.events i (·.duration)
    | 0x13 => elemAt s.eit.events i (·.runningStatus)
    | 0x14 => elemAt s.eit.events i (·.freeCaMode)
    | 0x15 => elemAt s.eit.events i (·.loopLength)
    | _ => none
  | .ait =>
    match sel.toNat with
    | 0x10 => elemAt s.ait.applications i (·.organisationId)
    | 0x11 => elemAt s.ait.applications i (·.applicationId)
    | 0x12 => elemAt s.ait.applications i (·.controlCode)
    | 0x13 => elemAt s.ait.applications i (·.loopLength)
    | _ => none
  | .dsmcc =>
    match sel.toNat with
    | 0x10 => elemAt s.dsmcc.sections i (·.tableId)
    | 0x11 => elemAt s.dsmcc.sections i (·.tableIdExtension)
    | 0x12 => elemAt s.dsmcc.sections i (·.versionNumber)
    | 0x13 => elemAt s.dsmcc.sections i (·.sectionNumber)
    | 0x14 => elemAt s.dsmcc.sections i (·.lastSectionNumber)
    | 0x15 => strElemAt s.dsmcc.sections i (·.bytes)
    | _ => none
  | .ebu =>
    match sel.toNat with
    | 0x10 => elemAt s.ebu i fun e => (keyOfIndex e.1).magazine
    | 0x11 => elemAt s.ebu i fun e => (keyOfIndex e.1).page
    | 0x12 => elemAt s.ebu i fun e => (keyOfIndex e.1).subpage
    | 0x13 => elemAt s.ebu i fun e => BitVec.ofBool e.2.isOpen
    | _ => none
  | .tdt | .pcr => none

/-- The lines of the EBU page with ordinal `i`: pages in ascending key order, R161. -/
def linesOf (s : State) (i : Nat) : Option (List EbuLine) := s.ebu[i]?.map fun e => e.2.lines

/-- A selector of one line of one EBU page, R161: the only one that uses `idx2`. -/
def lineSel (u : UnitId) (sel : Byte) : Bool := u = .ebu && (sel == 0x14#8 || sel == 0x15#8)

/-- Line `j` of page `i`, R152. -/
def lineOf (s : State) (sel : Byte) (i j : Nat) : Option FieldVal :=
  match linesOf s i with
  | none => none
  | some lines => if sel = 0x14#8 then elemAt lines j (·.row) else strElemAt lines j (·.data)

/-- A `GET_FIELD` with a non-zero field its selector does not use (R152, R171; assumption log 9). -/
def getFieldMalformed (u : UnitId) (sel : Byte) (idx1 : BitVec 16) (idx2 : BitVec 12) : Bool :=
  (scalarSel u sel && idx1 != 0) || (!lineSel u sel && idx2 != 0)

/-- What `GET_FIELD` answers, R152. A selector of a descriptor list (`0x20`, `0x21`) stands in the selector tables,
but no branch of R152 answers it: it names no field, so it is `NOT_FOUND` here (DESIGN CHOICE, unsafe: assumption
log 22). -/
def getFieldResponse (s : State) (u : UnitId) (sel : Byte) (idx1 : BitVec 16) (idx2 : BitVec 12) : Response :=
  if getFieldMalformed u sel idx1 idx2 then .rejected
  else if !s.tableValid u then .notFound
  else if scalarSel u sel then found (scalarOf s u sel)
  else if lineSel u sel then found (lineOf s sel idx1.toNat idx2.toNat)
  else found (entryOf s u sel idx1.toNat)

/-- The length of a unit's main list, selector `0x10`. -/
def mainLength (s : State) : UnitId → Option Nat
  | .pat => some s.pat.programs.length
  | .pmt => some s.pmt.streams.length
  | .nit => some s.nit.streams.length
  | .sdt => some s.sdt.services.length
  | .eit => some s.eit.events.length
  | .ait => some s.ait.applications.length
  | .dsmcc => some s.dsmcc.sections.length
  | .ebu => some s.ebu.length
  | .tdt | .pcr => none

/-- What `GET_LIST_LEN` answers, R153: `idx1` is used by the lines of an EBU page only. -/
def getListLenResponse (s : State) (u : UnitId) (sel : Byte) (idx1 : BitVec 16) : Response :=
  let pageLines := u = .ebu && sel == 0x14#8
  if !pageLines && idx1 != 0 then .rejected
  else if !s.tableValid u then .notFound
  else if pageLines then found ((linesOf s idx1.toNat).map fun l => countOf l.length)
  else if sel = 0x10#8 then found ((mainLength s u).map countOf)
  else .notFound

/-! ## Descriptor lists (40_host_commands.md section 7) -/

/-- `resolve(path)`: the descriptor list, or none. -/
def resolve (s : State) (u : UnitId) (sel : Byte) (idx1 : Nat) : Option (List Descriptor) :=
  if !s.tableValid u then none
  else match u, sel.toNat with
    | .pmt, 0x20 => some s.pmt.programInfo
    | .nit, 0x20 => some s.nit.networkDescriptors
    | .ait, 0x20 => some s.ait.commonDescriptors
    | .pmt, 0x21 => s.pmt.streams[idx1]?.map (·.descriptors)
    | .nit, 0x21 => s.nit.streams[idx1]?.map (·.descriptors)
    | .sdt, 0x21 => s.sdt.services[idx1]?.map (·.descriptors)
    | .eit, 0x21 => s.eit.events[idx1]?.map (·.descriptors)
    | .ait, 0x21 => s.ait.applications[idx1]?.map (·.descriptors)
    | _, _ => none

/-- `M(L, tag)`, 44_descriptors.md R305: the ascending ordinals whose tag is `tag`. -/
def matchesOf (l : List Descriptor) (tag : Byte) : List Nat :=
  (List.range l.length).filter fun k => (l[k]?.map (·.tag)) == some tag

/-- A command over a descriptor list: for `sel = 0x20`, `idx1` must be 0 (assumption log 9); `NOT_FOUND`
when `resolve` fails. -/
def withList (s : State) (u : UnitId) (sel : Byte) (idx1 : BitVec 16) (k : List Descriptor → Response) : Response :=
  if sel = 0x20#8 && idx1 != 0 then .rejected
  else match resolve s u sel idx1.toNat with
    | none => .notFound
    | some l => k l

/-- What `GET_DESC_BY_INDEX` answers for a descriptor: `kind * 2^16 + tag * 2^8 + length`, R164. -/
def descSummary (d : Descriptor) : BitVec 64 :=
  (kindNumber (kindOfInfo d.info) ++ d.tag ++ d.length).setWidth 64

/-! ## One byte of a store (10_state.md R33) -/

/-- An address of a byte: the stores of R33 that hold bytes. -/
inductive MemAddr where
  /-- IN: a byte of the batch -/
  | input (k : Nat)
  /-- SECBUF: a byte of a context's buffer -/
  | secbuf (pid : Pid) (k : Nat)
  /-- DESC: a byte of the body of a descriptor, by list path and ordinal -/
  | desc (unit : UnitId) (sel : Byte) (idx1 ordinal k : Nat)
  /-- DSMCC: a byte of a collected section -/
  | dsmcc (ordinal k : Nat)
  /-- EBU: a byte of a line of a page -/
  | ebu (key : EbuKey) (line k : Nat)
deriving DecidableEq, Repr

/-- The byte at an address, or none where nothing is stored. -/
def readByte (s : State) : MemAddr → Option Byte
  | .input k => s.stream[k]?
  | .secbuf p k => (s.ctxOf p).buf[k]?
  | .desc u sel idx1 ordinal k => ((resolve s u sel idx1).bind (·[ordinal]?)).bind (·.body[k]?)
  | .dsmcc ordinal k => (s.dsmcc.sections[ordinal]?).bind (·.bytes[k]?)
  | .ebu key line k => ((s.pageOf key).lines[line]?).bind (·.data[k]?)

end Sys2Proof.Machine
end

