-- ==== Sys2Proof/Machine/HostCommands.lean ====
section
/-! DEFINITION. The host commands of 40_host_commands.md: RESET, SET_PID_r, the counters, the notification
slots, the accessors, the DSMCC commands, PROCESS and ACK. -/

namespace Sys2Proof.Machine

/-! ## RESET (R140) -/

/-- What `RESET` clears: all accumulated and decoded state and the counters. The bindings and the slots stay
(70_reset_and_hazards.md R411). `pending` and the transient elements, which 10_state.md R30 and R47 leave unspecified or
without a value after `RESET`, keep what they hold (DESIGN CHOICE, unsafe: assumption log 7). -/
def State.cleared (s : State) : State :=
  { s with packets := 0, errors := 0, pcr := {}, ctx := [], carry := [], pat := {}, pmt := {}, nit := {},
           sdt := {}, eit := {}, tdt := {}, ait := {}, dsmcc := {}, ebu := [], phase := .ready }

/-- `RESET`, R140. -/
def execReset (s : State) : Result State := inReady s (s.cleared.respond .done)

/-! ## SET_PID_r (R143 to R147) -/

/-- The fixed table-role PIDs, 00_scope.md R9. -/
def fixedTablePids (cfg : Config) : List Pid := [cfg.pidPat, cfg.pidNit, cfg.pidSdt, cfg.pidEit, cfg.pidTdt]

/-- R143 for one role: refused by a PID another role holds (`others`) or a fixed table PID; else the
state `t`, in which the role is bound. -/
def setPid (s : State) (others : List Binding) (pid : Pid) (t : State) : Result State :=
  inReady s
    (if others.any (·.is pid) || (fixedTablePids s.cfg).contains pid then s.respond .rejected
     else t.respond .done)

/-- `SET_PID_DSMCC`, R144. -/
def execSetPidDsmcc (pid : Pid) (s : State) : Result State :=
  setPid s [s.bind.ait, s.bind.pcr, s.bind.ebu] pid { s with bind := { s.bind with dsmcc := ⟨true, pid⟩ } }

/-- `SET_PID_AIT`, R145. -/
def execSetPidAit (pid : Pid) (s : State) : Result State :=
  setPid s [s.bind.dsmcc, s.bind.pcr, s.bind.ebu] pid { s with bind := { s.bind with ait := ⟨true, pid⟩ } }

/-- `SET_PID_PCR`, R146. -/
def execSetPidPcr (pid : Pid) (s : State) : Result State :=
  setPid s [s.bind.dsmcc, s.bind.ait, s.bind.ebu] pid { s with bind := { s.bind with pcr := ⟨true, pid⟩ } }

/-- `SET_PID_EBU`, R147. -/
def execSetPidEbu (pid : Pid) (s : State) : Result State :=
  setPid s [s.bind.dsmcc, s.bind.ait, s.bind.pcr] pid { s with bind := { s.bind with ebu := ⟨true, pid⟩ } }

/-! ## Counters and slots (R148 to R151) -/

/-- `GET_ERRORS`, R148. -/
def execGetErrors (s : State) : Result State := readCmd s (.scalar (BitVec.ofNat 64 s.errors))

/-- `GET_PACKETS`, R149. -/
def execGetPackets (s : State) : Result State := readCmd s (.scalar (BitVec.ofNat 64 s.packets))

/-- `REGISTER_CB`, R150. -/
def execRegisterCb (u : UnitId) (s : State) : Result State :=
  inReady s (State.respond { s with cbEn := cbEnWith s.cbEn u true } .done)

/-- `UNREGISTER_CB`, R151. -/
def execUnregisterCb (u : UnitId) (s : State) : Result State :=
  inReady s (State.respond { s with cbEn := cbEnWith s.cbEn u false } .done)

/-! ## Accessors (R152 to R166) -/

/-- `GET_FIELD`, R152. -/
def execGetField (u : UnitId) (sel : Byte) (idx1 : BitVec 16) (idx2 : BitVec 12) (s : State) : Result State :=
  readCmd s (getFieldResponse s u sel idx1 idx2)

/-- `GET_LIST_LEN`, R153. -/
def execGetListLen (u : UnitId) (sel : Byte) (idx1 : BitVec 16) (s : State) : Result State :=
  readCmd s (getListLenResponse s u sel idx1)

/-- `GET_DESC_LIST_LEN_ALL`, R162. -/
def execGetDescListLenAll (u : UnitId) (sel : Byte) (idx1 : BitVec 16) (s : State) : Result State :=
  readCmd s (withList s u sel idx1 fun l => .scalar (BitVec.ofNat 64 l.length))

/-- `GET_DESC_LIST_LEN_FOR_TAG`, R163. -/
def execGetDescListLenForTag (u : UnitId) (sel : Byte) (idx1 : BitVec 16) (tag : Byte) (s : State) : Result State :=
  readCmd s (withList s u sel idx1 fun l => .scalar (BitVec.ofNat 64 (matchesOf l tag).length))

/-- `GET_DESC_BY_INDEX`, R164. -/
def execGetDescByIndex (u : UnitId) (sel : Byte) (idx1 : BitVec 16) (idx2 : BitVec 12) (s : State) : Result State :=
  readCmd s (withList s u sel idx1 fun l => found (l[idx2.toNat]?.map fun d => .num (descSummary d)))

/-- `GET_DESC_BY_TAG`, R165. -/
def execGetDescByTag (u : UnitId) (sel : Byte) (idx1 : BitVec 16) (idx2 : BitVec 12) (tag : Byte) (s : State) :
    Result State :=
  readCmd s (withList s u sel idx1 fun l => found ((matchesOf l tag)[idx2.toNat]?.map countOf))

/-- `GET_DESC_FIELD`, R166. -/
def execGetDescField (u : UnitId) (sel : Byte) (idx1 : BitVec 16) (idx2 : BitVec 12) (idx3 fid : Byte) (s : State) :
    Result State :=
  readCmd s (withList s u sel idx1 fun l => found (l[idx2.toNat]?.bind fun d => descField d fid idx3.toNat))

/-! ## DSMCC commands (R167, R168) -/

/-- `DSMCC_IS_COMPLETE`, R167. -/
def execDsmccIsComplete (s : State) : Result State :=
  readCmd s (.scalar (if s.dsmcc.state = .complete then 1 else 0))

/-- `DSMCC_DECODE`, R168: legal in `READY` only (R142 does not list it among the reads); no state change. -/
def execDsmccDecode (s : State) : Result State :=
  inReady s (s.respond
    (if s.dsmcc.state = .complete then .scalar (BitVec.ofNat 64 s.dsmcc.sections.length) else .notFound))

/-! ## PROCESS and ACK (R169, R170) -/

/-- `PROCESS`, 41_packet_deframe_route.md R180 and the first two lines of R181: the batch is taken after
`carry` when `XBUF` is true, the cursor is at its start, the phase is `IN_BATCH`. The framing loop is the
engine's step. -/
def execProcess (bytes : Bytes) (s : State) : Result State :=
  inReady s
    { s with phase := .inBatch, batchErr := false, stream := (if s.cfg.xbuf then s.carry else []) ++ bytes,
             carry := [], pc := 0, work := [] }

/-- `ACK`, 60_exceptions.md R382: legal only in `IN_NOTIFY`. -/
def execAck (s : State) : Result State :=
  .next (if s.phase = .inNotify then s.acknowledge else s.respond .refused)

/-! ## Words that are no command (R171) -/

/-- The opcodes of the read-only commands, legal in `IN_NOTIFY`, R142. -/
def readOpcode (op : Byte) : Bool :=
  [0x06#8, 0x07#8, 0x10#8, 0x11#8, 0x12#8, 0x13#8, 0x14#8, 0x15#8, 0x16#8, 0x18#8].contains op

/-- A malformed word: `REJECTED` in a phase that allows its opcode, else `REFUSED`: the phase check comes
first (R171; assumption log 10). -/
def malformedWord (w : BitVec 64) (s : State) : Result State :=
  .next (s.respond
    (if s.phase = .ready ∨ (s.phase = .inNotify ∧ readOpcode (opOf w)) then .rejected else .refused))

end Sys2Proof.Machine
end

