-- ==== Sys2Proof/Machine/Packet.lean ====
section
/-! DEFINITION. The deframer of 41_packet_deframe_route.md: the framing loop (R181), the header latch
(R182, R183), routing (R184 to R188), and the packet instructions TSPKT.RSV, TSPKT.PL, TSPKT.AF and
TSPKT.AFPL. -/

namespace Sys2Proof.Machine

/-! ## The header latch (R182, R183) -/

/-- The latch of a packet: header fields and the bounds of adaptation field and payload. `rest` is packet
bytes 4 to 187, so `P[4]` is its byte 0. -/
def latch (afc : BitVec 2) (h : PktHead) (rest : Bytes) : Hdr :=
  let afl := if afc.getLsbD 1 then byteAt rest 0 else 0#8
  let afOk := !afc.getLsbD 1 || decide (5 + afl.toNat ≤ packetLength)
  { tei := h.tei, pusi := h.pusi, prio := h.prio, pid := h.pid, tsc := h.tsc, afc := afc, cc := h.cc
    afl := afl
    afOk := afOk
    afFlags := if afc.getLsbD 1 && afOk && decide (1 ≤ afl.toNat) then byteAt rest 1 else 0#8
    plOff := if !afc.getLsbD 1 then 4#8 else if afOk then 5#8 + afl else 188#8 }

/-- `payload`, R183: `P[pl_off : 188]`, or nothing when `afc[0] = 0`. -/
def payloadOf (h : Hdr) (rest : Bytes) : Bytes :=
  if h.afc.getLsbD 0 then slice rest (h.plOff.toNat - 4) 184 else []

/-! ## Roles of a PID (R187) -/

/-- `PmtPids`, R187: the PIDs of the entries of the committed PAT whose `program_number` is not 0. -/
def pmtPids (s : State) : List Pid :=
  if s.pat.valid then (s.pat.programs.filter fun e => e.programNumber != 0).map (·.pid) else []

/-- The PID test of a role, R187. -/
def hasRole (s : State) (p : Pid) : Role → Bool
  | .pat => p == s.cfg.pidPat
  | .pmt => (pmtPids s).contains p
  | .nit => p == s.cfg.pidNit
  | .sdt => p == s.cfg.pidSdt
  | .eit => p == s.cfg.pidEit
  | .tdt => p == s.cfg.pidTdt
  | .ait => s.bind.ait.is p
  | .dsmcc => s.bind.dsmcc.is p

/-- `Roles(p)`: every role whose PID test holds now, R187. -/
def roles (s : State) (p : Pid) : List Role := allRoles.filter (hasRole s p)

/-- `IsTablePid(p)`, R187. -/
def isTablePid (s : State) (p : Pid) : Bool := allRoles.any (hasRole s p)

/-! ## Routing (R184) -/

/-- `ebu_units(payload, pusi)`, 45_packet_decoders.md R354: no events from no payload; else the parameter. -/
def ebuUnits (cfg : Config) (payload : Bytes) (pusi : Bool) : List EbuEvent :=
  match payload with
  | [] => []
  | b :: _ =>
    match cfg.ebuRule with
    | .uninterpreted => Config.freeEbuUnits payload pusi
    | .byFirstByte rows => ((rows.find? fun r => r.1 == b).map (·.2)).getD []

/-- Where a latched packet goes, R184: PCR first, then EBU, then the reassembler, else discarded (R186).
A packet without payload changes nothing in the reassembler (42_section_reassembly_crc.md R210). -/
def routeWork (s : State) (packet payload : Bytes) : List Work :=
  if s.bind.pcr.is s.hdr.pid then [.unit (.pcrPacket packet)]
  else if s.bind.ebu.is s.hdr.pid then (ebuUnits s.cfg payload s.hdr.pusi).map fun e => .unit (.event e)
  else if (s.ctxOf s.hdr.pid).state = .accumulating || isTablePid s s.hdr.pid then
    (if s.hdr.afc.getLsbD 0 then [.unit (.payloadPacket s.hdr.pid payload)] else [])
  else []

/-! ## The packet instructions (R182 to R190) -/

/-- `HandlePacket`, first and second part (R182, R183): the packet is counted and its header latched. -/
def State.takePacket (s : State) (afc : BitVec 2) (h : PktHead) (rest : Bytes) : State :=
  { s with packets := satInc s.cfg s.packets, hdr := latch afc h rest }

/-- `HandlePacket`, third part (R184): what the packet is routed to is done next. -/
def State.routePacket (s : State) (h : PktHead) (rest : Bytes) : State :=
  s.push (routeWork s (packetBytes s.cfg.syncByte s.hdr.afc h rest) (payloadOf s.hdr rest))

/-- `TSPKT.RSV`, R188: counted, then discarded before any role is tested. -/
def execTspktRsv (h : PktHead) (rest : Bytes) (s : State) : Result State := .next (s.takePacket 0#2 h rest)

/-- `TSPKT.PL`, R190: payload only. -/
def execTspktPl (h : PktHead) (rest : Bytes) (s : State) : Result State :=
  .next ((s.takePacket 1#2 h rest).routePacket h rest)

/-- `TSPKT.AF`, R189: adaptation field only, no payload. -/
def execTspktAf (h : PktHead) (rest : Bytes) (s : State) : Result State :=
  .next ((s.takePacket 2#2 h rest).routePacket h rest)

/-- `TSPKT.AFPL`, R190: adaptation field, then payload. -/
def execTspktAfpl (h : PktHead) (rest : Bytes) (s : State) : Result State :=
  .next ((s.takePacket 3#2 h rest).routePacket h rest)

/-! ## The framing loop (R181) -/

/-- The 188 bytes at the cursor, when they are a packet. -/
def State.packetHere (s : State) : Option Instr :=
  match decodePacket s.cfg.syncByte ((s.stream.drop s.pc).take packetLength) with
  | .ok i => some i
  | .error _ => none

/-- The next sync position: the least `j > pc` with `s[j] = SYNC_BYTE`, or the end of the batch. -/
def State.nextSync (s : State) : Nat :=
  s.pc + 1 + (s.stream.drop (s.pc + 1)).findIdx (· == s.cfg.syncByte)

/-- The end of the batch: back to `READY`, with `batch_ok` as the result (R180). -/
def State.endBatch (s : State) : State :=
  { s with phase := .ready, stream := [], pc := 0, out := s.out ++ [.batchDone s.batchOk] }

/-- One turn of the framing loop at a cursor where no packet stands, R181: the end of the batch, a lost
sync, or a truncated trailing packet. -/
def State.reframe (s : State) : State :=
  if s.stream.length ≤ s.pc then s.endBatch
  else if byteAt s.stream s.pc ≠ s.cfg.syncByte then { s.raise .framingSync with pc := s.nextSync }
  else if s.cfg.xbuf then { s with carry := s.stream.drop s.pc, pc := s.stream.length }
  else { s.raise .framingTrunc with pc := s.stream.length }

end Sys2Proof.Machine
end

