-- ==== Sys2Proof/Machine/PacketDecoders.lean ====
section
/-! DEFINITION. The packet decoders of 45_packet_decoders.md: PCR.DECODE, EBU.HEADER, EBU.LINE. -/

namespace Sys2Proof.Machine

/-- `base * 300 + ext` in 42 bits, R351: `base = F[47:15]`, `ext = F[8:0]`; the reserved bits `F[14:9]` are
ignored (R352). -/
def pcrValue (field : BitVec 48) : BitVec 42 :=
  (field.extractLsb' 15 33).setWidth 42 * 300#42 + (field.extractLsb' 0 9).setWidth 42

/-- The adaptation field is whole and holds a PCR field: `af_ok = 1` and `afl >= 7`, R351. The flag bits
`afc[1]` and `PCR_flag` are fixed by the encoding of PCR.DECODE (30_encoding.md R103). -/
def pcrFits (afl : Byte) : Bool := 7 ≤ afl.toNat && 5 + afl.toNat ≤ packetLength

/-- `PCR.DECODE`, R351. The router has matched the PID (R350); the decoder does not read it. -/
def execPcrDecode (_pid : Pid) (afl : Byte) (field : BitVec 48) (s : State) : Result State :=
  .next (if pcrFits afl then State.notify { s with pcr := { valid := true, value := pcrValue field } } .pcr else s)

/-- `EBU.HEADER`, R355: a header for an open page completes it. With the slot enabled the lines stay
readable until the acknowledgement (R357); without it they are dropped unseen. A page not open is opened. -/
def execEbuHeader (key : EbuKey) (s : State) : Result State :=
  .next
    (if (s.pageOf key).isOpen then
      (if s.cbEnabled .ebu then State.notify { s with ebuDone := some key } .ebu else s.clearLines key)
     else s.setPage key { isOpen := true, lines := [] })

/-- `EBU.LINE`, R356: appended to an open page, else discarded. -/
def execEbuLine (key : EbuKey) (row : Byte) (data : Bytes) (s : State) : Result State :=
  .next
    (if (s.pageOf key).isOpen then
      s.setPage key { s.pageOf key with lines := (s.pageOf key).lines ++ [{ row := row, data := data }] }
     else s)

end Sys2Proof.Machine
end

