-- ==== Sys2Proof/Machine/Crc.lean ====
section
/-! DEFINITION. The CRC-32 of 42_section_reassembly_crc.md R215, over the parameters of 00_scope.md R9. -/

namespace Sys2Proof.Machine

/-- One bit of the division: `c * 2 mod 2^32`, with the polynomial when bit 31 was 1. -/
def crcShift (poly c : BitVec 32) : BitVec 32 := if c.getLsbD 31 then (c <<< 1) ^^^ poly else c <<< 1

/-- One byte: it is added to the top of the register, then 8 bits are divided. -/
def crcByte (poly c : BitVec 32) (b : Byte) : BitVec 32 := (crcShift poly)^[8] (c ^^^ (b.setWidth 32 <<< 24))

/-- `crc32(s)`, R215, before output reflection and final XOR. -/
def crcRegister (cfg : Config) (s : Bytes) : BitVec 32 :=
  s.foldl (fun c b => crcByte cfg.crcPoly c (if cfg.crcReflect then b.reverse else b)) cfg.crcInit

/-- `crc32(s)`, R215. What `CRC_REFLECT = yes` would do is assumption log 15; the default is no. -/
def crc32 (cfg : Config) (s : Bytes) : BitVec 32 :=
  (if cfg.crcReflect then (crcRegister cfg s).reverse else crcRegister cfg s) ^^^ cfg.crcXorOut

/-- `crc_len(table_id)`, 30_encoding.md R108. -/
def crcLen (cfg : Config) (tid : Byte) : Nat := if cfg.crcExempt.contains tid then 0 else 4

/-- The CRC test of 42_section_reassembly_crc.md R216: a section of at least 7 bytes whose last 4 bytes are
the CRC of the bytes before them; an exempt `table_id` is not tested. -/
def crcValid (cfg : Config) (sec : Bytes) : Bool :=
  cfg.crcExempt.contains (byteAt sec 0) ||
    (7 ≤ sec.length && crc32 cfg (sec.take (sec.length - 4)) == u32 sec (sec.length - 4))

end Sys2Proof.Machine
end

