-- ==== Sys2Proof/Machine/Reassembly.lean ====
section
/-! DEFINITION. The section reassembler and the CRC validator of 42_section_reassembly_crc.md, one
meaning for each micro-operation: SEC.CC, SEC.START, SEC.APPEND, SEC.DRAIN, SEC.STUFF, SEC.ST, SEC.CRC,
SEC.DISPATCH, SEC.OTHER. What a rule does next is pushed on the engine's continuation (assumption log 5). -/

namespace Sys2Proof.Machine

/-! ## Contexts -/

/-- `C.state <- IDLE ; C.buf <- []`; the continuity fields stay. -/
def Ctx.idled (c : Ctx) : Ctx := { c with state := .idle, buf := [] }

/-- `C.state <- ACCUMULATING ; C.buf <- b`. -/
def Ctx.filled (c : Ctx) (b : Bytes) : Ctx := { c with state := .accumulating, buf := b }

/-- `C.last_cc <- cc ; C.cc_valid <- 1`. -/
def Ctx.tracked (c : Ctx) (cc : BitVec 4) : Ctx := { c with ccValid := true, lastCc := cc }

/-! ## Continuity (R211) -/

/-- `SEC.CC`, R211: a duplicate ends the handling of the packet; a jump is a `CONTINUITY` error and
abandons the section in flight; then the counter is tracked and the payload step follows. -/
def execSecCc (pid : Pid) (payload : Bytes) (s : State) : Result State :=
  let c := s.ctxOf pid
  let next : Work := .unit (.payload s.hdr.pusi pid payload)
  .next
    (if c.duplicate s.hdr.cc then s
     else if c.jump s.hdr.cc then ((s.raise .continuity).setCtx pid (c.idled.tracked s.hdr.cc)).push [next]
     else (s.setCtx pid (c.tracked s.hdr.cc)).push [next])

/-! ## The payload step (R212) -/

/-- The last two lines of SEC.START: a fresh buffer with the bytes from the pointer position, or `IDLE`
when there are none. -/
def State.restart (s : State) (pid : Pid) (new : Bytes) : State :=
  if new = [] then s.setCtx pid (s.ctxOf pid).idled
  else (s.setCtx pid ((s.ctxOf pid).filled new)).push [.unit (.drain pid)]

/-- The tail of the section in flight and the bytes of the new section, R212; a pointer beyond the
payload leaves only a tail (R219 case (b)). -/
def splitAtPointer (ptr : Byte) (rest : Bytes) : Bytes × Bytes := (rest.take ptr.toNat, rest.drop ptr.toNat)

/-- `SEC.START`, R212 and R219: no pointer byte, nothing happens; else the section in flight takes its tail
and is drained, then the new section starts. -/
def execSecStart (pid : Pid) (payload : Bytes) (s : State) : Result State :=
  match payload with
  | [] => .next s
  | ptr :: rest =>
    let (tail, new) := splitAtPointer ptr rest
    let c := s.ctxOf pid
    .next
      (if c.state = .accumulating then
        (s.setCtx pid (c.filled (c.buf ++ tail))).push [.unit (.drain pid), .restart pid new]
       else s.restart pid new)

/-- `SEC.APPEND`, R212: appended to the section in flight, else discarded. -/
def execSecAppend (pid : Pid) (payload : Bytes) (s : State) : Result State :=
  let c := s.ctxOf pid
  .next
    (if c.state = .accumulating then (s.setCtx pid (c.filled (c.buf ++ payload))).push [.unit (.drain pid)] else s)

/-! ## Extraction (R213, R214) -/

/-- `total = 3 + section_length` of the section at the front of a buffer, R213. -/
def sectionTotal (buf : Bytes) : Nat := 3 + (sectionLength buf).toNat

/-- `SEC.DRAIN`, one turn of the loop of R214: the next turn, when there is one, is pushed behind the
handling of the section taken. -/
def execSecDrain (pid : Pid) (s : State) : Result State :=
  let c := s.ctxOf pid
  .next
    (if c.buf = [] then s.setCtx pid c.idled
     else if byteAt c.buf 0 = 0xFF#8 then s.push [.unit (.table pid [] c.buf)]
     else if c.buf.length < 3 then s
     else if c.buf.length < sectionTotal c.buf then s
     else (s.setCtx pid { c with buf := c.buf.drop (sectionTotal c.buf) }).push
            [.unit (.extracted pid (c.buf.take (sectionTotal c.buf))), .unit (.drain pid)])

/-- `SEC.STUFF`, R220: the rest of the buffer is dropped and the context goes `IDLE`. -/
def execSecStuff (pid : Pid) (s : State) : Result State := .next (s.setCtx pid (s.ctxOf pid).idled)

/-- `SEC.ST`, R220: a stuffing section is dropped, with no CRC check and no error. -/
def execSecSt (_sec : Bytes) (s : State) : Result State := .next s

/-! ## Validation and dispatch (R216, R221) -/

/-- `SEC.CRC`, R216: a stuffing section is dropped (R220), a failing one is an `INTEGRITY` error, a valid
one is dispatched. -/
def execSecCrc (pid : Pid) (sec : Bytes) (s : State) : Result State :=
  .next
    (if s.cfg.stuffingIds.contains (byteAt sec 0) then s
     else if crcValid s.cfg sec then s.push [.unit (.validated pid sec)]
     else s.raise .integrity)

/-- `SEC.DISPATCH`, R221: to the decoder of the role that accepts the `table_id`, with the roles the PID has
now. -/
def execSecDispatch (pid : Pid) (sec : Bytes) (s : State) : Result State :=
  .next (s.push [.unit (.table pid (roles s pid) sec)])

/-- `SEC.OTHER`, R221: dropped, no error, no notification. -/
def execSecOther (_sec : Bytes) (s : State) : Result State := .next s

end Sys2Proof.Machine
end

