-- ==== Sys2Proof/Machine/Tables.lean ====
section
/-! DEFINITION. The table decoders of 43_table_decoders.md: each parses a validated section completely,
tests for a duplicate, replaces the record in one step and notifies (R250). -/

namespace Sys2Proof.Machine

/-! ## Common procedure (R250 to R253) -/

/-- `end = total - crc_len(s[0])`, R251. -/
def sectionEnd (cfg : Config) (s : Bytes) : Nat := s.length - crcLen cfg (byteAt s 0)

/-- The long section header, R251. -/
def longHeader (s : Bytes) : LongHeader where
  tableId := byteAt s 0
  sectionSyntaxIndicator := (byteAt s 1).extractLsb' 7 1
  sectionLength := sectionLength s
  tableIdExtension := u16 s 3
  versionNumber := (byteAt s 5).extractLsb' 1 5
  currentNextIndicator := (byteAt s 5).extractLsb' 0 1
  sectionNumber := byteAt s 6
  lastSectionNumber := byteAt s 7

/-- The low 12 bits at offset `o`: a declared inner length. -/
def len12 (s : Bytes) (o : Nat) : BitVec 12 := (u16 s o).extractLsb' 0 12

/-- The low 13 bits at offset `o`: a PID. -/
def pid13 (s : Bytes) (o : Nat) : Pid := (u16 s o).extractLsb' 0 13

/-- The region of declared length `n` at offset `a` inside a region that ends at `e`, clamped, R253. -/
def region (s : Bytes) (a : Nat) (n : BitVec 12) (e : Nat) : Bytes := slice s a (min (a + n.toNat) e)

/-- The entries of a loop from offset `o` to `e`: an entry's fixed part has `k` bytes, and the next one
starts `size o` bytes after it, as declared, not as clamped (R253). `fuel` bounds the number of entries. -/
def entries {α : Type} (k e : Nat) (entry : Nat → α) (size : Nat → Nat) : Nat → Nat → List α
  | 0, _ => []
  | fuel + 1, o => if o + k ≤ e then entry o :: entries k e entry size fuel (o + size o) else []

/-- `Duplicate(u, rec)` for a unit that tracks versions, R252. -/
def sameVersion (valid : Bool) (held new : LongHeader) : Bool :=
  valid && new.versionNumber == held.versionNumber && new.sectionNumber == held.sectionNumber

/-! ## PAT (R255) -/

/-- An entry of a PAT. -/
def patEntry (s : Bytes) (o : Nat) : PatEntry := { programNumber := u16 s o, pid := pid13 s (o + 2) }

/-- `Parse_PAT` -/
def parsePat (cfg : Config) (s : Bytes) : Option Pat :=
  let e := sectionEnd cfg s
  if e < 8 then none
  else some { valid := true, header := longHeader s
              programs := entries 4 e (patEntry s) (fun _ => 4) s.length 8 }

/-- `SEC.PAT`, R250, R252, R255. -/
def execSecPat (sec : Bytes) (s : State) : Result State :=
  match parsePat s.cfg sec with
  | none => .next s
  | some r =>
    .next (if sameVersion s.pat.valid s.pat.header r.header then s else State.notify { s with pat := r } .pat)

/-! ## PMT (R256) -/

/-- An elementary stream of a PMT. -/
def pmtStream (cfg : Config) (s : Bytes) (e o : Nat) : PmtStream where
  streamType := byteAt s o
  elementaryPid := pid13 s (o + 1)
  esInfoLength := len12 s (o + 3)
  descriptors := descList cfg .si (region s (o + 5) (len12 s (o + 3)) e)

/-- `Parse_PMT` -/
def parsePmt (cfg : Config) (s : Bytes) : Option Pmt :=
  let e := sectionEnd cfg s
  if e < 12 then none
  else some { valid := true, header := longHeader s
              pcrPid := pid13 s 8
              programInfoLength := len12 s 10
              programInfo := descList cfg .si (region s 12 (len12 s 10) e)
              streams := entries 5 e (pmtStream cfg s e) (fun o => 5 + (len12 s (o + 3)).toNat) s.length
                           (12 + (len12 s 10).toNat) }

/-- `SEC.PMT`, R250, R252, R256. -/
def execSecPmt (sec : Bytes) (s : State) : Result State :=
  match parsePmt s.cfg sec with
  | none => .next s
  | some r =>
    .next (if sameVersion s.pmt.valid s.pmt.header r.header then s else State.notify { s with pmt := r } .pmt)

/-! ## NIT (R257) -/

/-- A transport stream of a NIT. -/
def nitStream (cfg : Config) (s : Bytes) (e o : Nat) : NitStream where
  transportStreamId := u16 s o
  originalNetworkId := u16 s (o + 2)
  descriptorsLength := len12 s (o + 4)
  descriptors := descList cfg .si (region s (o + 6) (len12 s (o + 4)) e)

/-- `Parse_NIT`: without room for the loop length, it reads 0 and the list is empty. -/
def parseNit (cfg : Config) (s : Bytes) : Option Nit :=
  let e := sectionEnd cfg s
  let o := 10 + (len12 s 8).toNat
  let loopEnd := min (o + 2 + (len12 s o).toNat) e
  if e < 10 then none
  else some { valid := true, header := longHeader s
              networkDescriptorsLength := len12 s 8
              networkDescriptors := descList cfg .si (region s 10 (len12 s 8) e)
              streamLoopLength := if o + 2 ≤ e then len12 s o else 0
              streams :=
                if o + 2 ≤ e then
                  entries 6 loopEnd (nitStream cfg s loopEnd) (fun p => 6 + (len12 s (p + 4)).toNat) s.length (o + 2)
                else [] }

/-- `SEC.NIT`, R250, R252, R257. -/
def execSecNit (sec : Bytes) (s : State) : Result State :=
  match parseNit s.cfg sec with
  | none => .next s
  | some r =>
    .next (if sameVersion s.nit.valid s.nit.header r.header then s else State.notify { s with nit := r } .nit)

/-! ## SDT (R258) -/

/-- A service of an SDT. -/
def sdtService (cfg : Config) (s : Bytes) (e o : Nat) : SdtService where
  serviceId := u16 s o
  eitSchedule := (byteAt s (o + 2)).extractLsb' 1 1
  eitPresentFollowing := (byteAt s (o + 2)).extractLsb' 0 1
  runningStatus := (byteAt s (o + 3)).extractLsb' 5 3
  freeCaMode := (byteAt s (o + 3)).extractLsb' 4 1
  loopLength := len12 s (o + 3)
  descriptors := descList cfg .si (region s (o + 5) (len12 s (o + 3)) e)

/-- `Parse_SDT` -/
def parseSdt (cfg : Config) (s : Bytes) : Option Sdt :=
  let e := sectionEnd cfg s
  if e < 11 then none
  else some { valid := true, header := longHeader s
              originalNetworkId := u16 s 8
              services := entries 5 e (sdtService cfg s e) (fun o => 5 + (len12 s (o + 3)).toNat) s.length 11 }

/-- `SEC.SDT`, R250, R252, R258. -/
def execSecSdt (sec : Bytes) (s : State) : Result State :=
  match parseSdt s.cfg sec with
  | none => .next s
  | some r =>
    .next (if sameVersion s.sdt.valid s.sdt.header r.header then s else State.notify { s with sdt := r } .sdt)

/-! ## EIT (R259) -/

/-- An event of an EIT. -/
def eitEvent (cfg : Config) (s : Bytes) (e o : Nat) : EitEvent where
  eventId := u16 s o
  startTime := u40 s (o + 2)
  duration := u24 s (o + 7)
  runningStatus := (byteAt s (o + 10)).extractLsb' 5 3
  freeCaMode := (byteAt s (o + 10)).extractLsb' 4 1
  loopLength := len12 s (o + 10)
  descriptors := descList cfg .si (region s (o + 12) (len12 s (o + 10)) e)

/-- `Parse_EIT` -/
def parseEit (cfg : Config) (s : Bytes) : Option Eit :=
  let e := sectionEnd cfg s
  if e < 14 then none
  else some { valid := true, header := longHeader s
              transportStreamId := u16 s 8
              originalNetworkId := u16 s 10
              segmentLastSectionNumber := byteAt s 12
              lastTableId := byteAt s 13
              events := entries 12 e (eitEvent cfg s e) (fun o => 12 + (len12 s (o + 10)).toNat) s.length 14 }

/-- `SEC.EIT`, R250, R259: no duplicate suppression. -/
def execSecEit (sec : Bytes) (s : State) : Result State :=
  match parseEit s.cfg sec with
  | none => .next s
  | some r => .next (State.notify { s with eit := r } .eit)

/-! ## TDT (R260) -/

/-- `Parse_TDT` -/
def parseTdt (cfg : Config) (s : Bytes) : Option Tdt :=
  if sectionEnd cfg s < 8 then none
  else some { valid := true, tableId := byteAt s 0
              sectionSyntaxIndicator := (byteAt s 1).extractLsb' 7 1
              sectionLength := sectionLength s
              utcTime := u40 s 3 }

/-- `SEC.TDT`, R250, R260: no duplicate suppression. -/
def execSecTdt (sec : Bytes) (s : State) : Result State :=
  match parseTdt s.cfg sec with
  | none => .next s
  | some r => .next (State.notify { s with tdt := r } .tdt)

/-! ## AIT (R261) -/

/-- An application of an AIT. -/
def aitApp (cfg : Config) (s : Bytes) (e o : Nat) : AitApp where
  organisationId := u32 s o
  applicationId := u16 s (o + 4)
  controlCode := byteAt s (o + 6)
  loopLength := len12 s (o + 7)
  descriptors := descList cfg .ait (region s (o + 9) (len12 s (o + 7)) e)

/-- `Parse_AIT`: without room for the loop length, it reads 0 and the list is empty. -/
def parseAit (cfg : Config) (s : Bytes) : Option Ait :=
  let e := sectionEnd cfg s
  let o := 10 + (len12 s 8).toNat
  let loopEnd := min (o + 2 + (len12 s o).toNat) e
  if e < 10 then none
  else some { valid := true, header := longHeader s
              commonDescriptorsLength := len12 s 8
              commonDescriptors := descList cfg .ait (region s 10 (len12 s 8) e)
              applicationLoopLength := if o + 2 ≤ e then len12 s o else 0
              applications :=
                if o + 2 ≤ e then
                  entries 9 loopEnd (aitApp cfg s loopEnd) (fun p => 9 + (len12 s (p + 7)).toNat) s.length (o + 2)
                else [] }

/-- `SEC.AIT`, R250, R261: no duplicate suppression. -/
def execSecAit (sec : Bytes) (s : State) : Result State :=
  match parseAit s.cfg sec with
  | none => .next s
  | some r => .next (State.notify { s with ait := r } .ait)

/-! ## DSMCC (R262 to R264) -/

/-- The entry of a DSM-CC section, R262. -/
def dsmccEntry (s : Bytes) : DsmccEntry where
  tableId := byteAt s 0
  tableIdExtension := u16 s 3
  versionNumber := (byteAt s 5).extractLsb' 1 5
  sectionNumber := byteAt s 6
  lastSectionNumber := byteAt s 7
  bytes := s

/-- Two entries have the same `(table_id, table_id_extension, version_number)`, R264. -/
def sameDownload (a b : DsmccEntry) : Bool :=
  a.tableId == b.tableId && a.tableIdExtension == b.tableIdExtension && a.versionNumber == b.versionNumber

/-- `complete_by_numbers`, R264. -/
def completeByNumbers : List DsmccEntry → Bool
  | [] => false
  | e :: l =>
    (List.range (e.lastSectionNumber.toNat + 1)).all fun n =>
      (e :: l).any fun x => sameDownload e x && x.sectionNumber.toNat == n

/-- `dsmcc_complete`, R264: the parameter. -/
def dsmccComplete (cfg : Config) (l : List DsmccEntry) : Bool :=
  match cfg.dsmccRule with
  | .uninterpreted => Config.freeDsmccComplete l
  | .never => false
  | .byNumbers => completeByNumbers l

/-- `ProcessDownload(e)`, R263. -/
def State.processDownload (s : State) (e : DsmccEntry) : State :=
  if s.dsmcc.state = .collecting then
    (if dsmccComplete s.cfg (s.dsmcc.sections ++ [e]) then
      State.notify { s with dsmcc := { state := .complete, sections := s.dsmcc.sections ++ [e] } } .dsmcc
     else { s with dsmcc := { s.dsmcc with sections := s.dsmcc.sections ++ [e] } })
  else s

/-- `SEC.DSMCC`, R262: a section whose header is not whole is dropped. -/
def execSecDsmcc (sec : Bytes) (s : State) : Result State :=
  .next (if sectionEnd s.cfg sec < 8 then s else s.processDownload (dsmccEntry sec))

end Sys2Proof.Machine
end

