-- ==== Sys2Proof/Machine/Dispatch.lean ====
section
/-! DEFINITION. The dispatch: one arm for each row of spec/opcode_table.json. -/

namespace Sys2Proof.Machine

def exec (i : Instr) (s : State) : Host.Outcome State Fault Refusal :=
  match i with
  | .reset => Sys2Proof.Machine.execReset s
  | .setPidDsmcc pid => Sys2Proof.Machine.execSetPidDsmcc pid s
  | .setPidAit pid => Sys2Proof.Machine.execSetPidAit pid s
  | .setPidPcr pid => Sys2Proof.Machine.execSetPidPcr pid s
  | .setPidEbu pid => Sys2Proof.Machine.execSetPidEbu pid s
  | .getErrors => Sys2Proof.Machine.execGetErrors s
  | .getPackets => Sys2Proof.Machine.execGetPackets s
  | .registerCb unit => Sys2Proof.Machine.execRegisterCb unit s
  | .unregisterCb unit => Sys2Proof.Machine.execUnregisterCb unit s
  | .getField unit sel idx1 idx2 => Sys2Proof.Machine.execGetField unit sel idx1 idx2 s
  | .getListLen unit sel idx1 => Sys2Proof.Machine.execGetListLen unit sel idx1 s
  | .getDescListLenAll unit sel idx1 => Sys2Proof.Machine.execGetDescListLenAll unit sel idx1 s
  | .getDescListLenForTag unit sel idx1 tag => Sys2Proof.Machine.execGetDescListLenForTag unit sel idx1 tag s
  | .getDescByIndex unit sel idx1 idx2 => Sys2Proof.Machine.execGetDescByIndex unit sel idx1 idx2 s
  | .getDescByTag unit sel idx1 idx2 tag => Sys2Proof.Machine.execGetDescByTag unit sel idx1 idx2 tag s
  | .getDescField unit sel idx1 idx2 idx3 fid => Sys2Proof.Machine.execGetDescField unit sel idx1 idx2 idx3 fid s
  | .dsmccIsComplete => Sys2Proof.Machine.execDsmccIsComplete s
  | .dsmccDecode => Sys2Proof.Machine.execDsmccDecode s
  | .process bytes => Sys2Proof.Machine.execProcess bytes s
  | .ack => Sys2Proof.Machine.execAck s
  | .tspktRsv h rest => Sys2Proof.Machine.execTspktRsv h rest s
  | .tspktPl h rest => Sys2Proof.Machine.execTspktPl h rest s
  | .tspktAf h rest => Sys2Proof.Machine.execTspktAf h rest s
  | .tspktAfpl h rest => Sys2Proof.Machine.execTspktAfpl h rest s
  | .pcrDecode pid afl field => Sys2Proof.Machine.execPcrDecode pid afl field s
  | .secCc pid payload => Sys2Proof.Machine.execSecCc pid payload s
  | .secStart pid payload => Sys2Proof.Machine.execSecStart pid payload s
  | .secAppend pid payload => Sys2Proof.Machine.execSecAppend pid payload s
  | .secDrain pid => Sys2Proof.Machine.execSecDrain pid s
  | .secCrc pid sec => Sys2Proof.Machine.execSecCrc pid sec s
  | .secDispatch pid sec => Sys2Proof.Machine.execSecDispatch pid sec s
  | .secPat sec => Sys2Proof.Machine.execSecPat sec s
  | .secPmt sec => Sys2Proof.Machine.execSecPmt sec s
  | .secDsmcc sec => Sys2Proof.Machine.execSecDsmcc sec s
  | .secNit sec => Sys2Proof.Machine.execSecNit sec s
  | .secSdt sec => Sys2Proof.Machine.execSecSdt sec s
  | .secEit sec => Sys2Proof.Machine.execSecEit sec s
  | .secTdt sec => Sys2Proof.Machine.execSecTdt sec s
  | .secSt sec => Sys2Proof.Machine.execSecSt sec s
  | .secAit sec => Sys2Proof.Machine.execSecAit sec s
  | .secStuff pid => Sys2Proof.Machine.execSecStuff pid s
  | .secOther sec => Sys2Proof.Machine.execSecOther sec s
  | .descCa body => Sys2Proof.Machine.execDescCa body s
  | .descIso639 body => Sys2Proof.Machine.execDescIso639 body s
  | .descCarouselId body => Sys2Proof.Machine.execDescCarouselId body s
  | .descNetworkName body => Sys2Proof.Machine.execDescNetworkName body s
  | .descServiceList body => Sys2Proof.Machine.execDescServiceList body s
  | .descService body => Sys2Proof.Machine.execDescService body s
  | .descLinkage body => Sys2Proof.Machine.execDescLinkage body s
  | .descShortEvent body => Sys2Proof.Machine.execDescShortEvent body s
  | .descExtEvent body => Sys2Proof.Machine.execDescExtEvent body s
  | .descComponent body => Sys2Proof.Machine.execDescComponent body s
  | .descStreamId body => Sys2Proof.Machine.execDescStreamId body s
  | .descContent body => Sys2Proof.Machine.execDescContent body s
  | .descParental body => Sys2Proof.Machine.execDescParental body s
  | .descTeletext body => Sys2Proof.Machine.execDescTeletext body s
  | .descSubtitling body => Sys2Proof.Machine.execDescSubtitling body s
  | .descDataBcastId body => Sys2Proof.Machine.execDescDataBcastId body s
  | .descAppSignalling body => Sys2Proof.Machine.execDescAppSignalling body s
  | .descApplication body => Sys2Proof.Machine.execDescApplication body s
  | .descAppName body => Sys2Proof.Machine.execDescAppName body s
  | .descTransportProtocol body => Sys2Proof.Machine.execDescTransportProtocol body s
  | .descGeneric ns tag body => Sys2Proof.Machine.execDescGeneric ns tag body s
  | .ebuHeader key => Sys2Proof.Machine.execEbuHeader key s
  | .ebuLine key row data => Sys2Proof.Machine.execEbuLine key row data s

end Sys2Proof.Machine
end

