-- ==== Sys2Proof/Machine/Engine.lean ====
section
/-! DEFINITION. What the step calls around exec: which action of the host is due, how its waiting is
counted, what the engine finds next (00_scope.md R11; assumption logs 3 and 5), and where a word of
opcode_table.json is placed to be the next instruction. -/

namespace Sys2Proof.Machine

/-! ## The host's next action -/

/-- An item is done now: the engine is not running a batch, or the item has waited long enough. -/
def HostItem.due (phase : Phase) (h : HostItem) : Bool := phase != .inBatch || h.wait == some 0

/-- The host's next action, when it is due, and the state without it. -/
def State.takeAction (s : State) : Option (HostAct × State) :=
  match s.host with
  | [] => none
  | h :: rest => if h.due s.phase then some (h.act, { s with host := rest }) else none

/-- One step of a batch has passed for the host's next action. -/
def tickHost : List HostItem → List HostItem
  | [] => []
  | h :: rest => { h with wait := h.wait.map (· - 1) } :: rest

/-- The state at the start of a step of the engine. -/
def State.ticked (s : State) : State := { s with host := tickHost s.host }

/-! ## What the engine does next -/

/-- What a step of the engine does: run an instruction, or go to a state. -/
inductive Todo where
  | run (i : Instr) (s : State)
  | go (s : State)
deriving DecidableEq, Repr

/-- The next thing on the engine's continuation, or, when it is empty, the next turn of the framing loop
(41_packet_deframe_route.md R181). A unit that is no instruction has no effect; a region in which no
whole descriptor is left ends its walk (44_descriptors.md R300). -/
def State.todo (s : State) : Todo :=
  match s.work with
  | .unit c :: rest =>
    match decode s.cfg c with
    | .ok i => .run i { s with work := rest }
    | .error _ => .go { s with work := rest }
  | .region ns r :: rest =>
    match nextDescriptor s.cfg ns r with
    | some (i, r') => .run i { s with work := .region ns r' :: rest }
    | none => .go { s with work := rest }
  | .restart pid new :: rest => .go (State.restart { s with work := rest } pid new)
  | .endPacket :: rest => .go { s with work := rest, pc := s.pc + packetLength }
  | [] =>
    match s.packetHere with
    | some i => .run i { s with work := [.endPacket] }
    | none => .go s.reframe

/-! ## Placing a word of opcode_table.json -/

/-- The state in which the given unit is what the next step decodes. A command word is the host's next
action; a packet is the whole batch; a PCR packet is one already routed; a section is one already
validated; a descriptor is a region of its own. -/
def State.withUnit (s : State) : Code → State
  | .cmdWord w => { s with host := ⟨.cmd w, some 0⟩ :: s.host }
  | .packet bytes => { s with phase := .inBatch, host := [], stream := bytes, pc := 0, work := [] }
  | .descriptor ns bytes => { s with phase := .inBatch, host := [], work := [.region ns bytes] }
  | c => { s with phase := .inBatch, host := [], work := [.unit c] }

end Sys2Proof.Machine
end

