-- ==== Sys2Proof/Machine/Step.lean ====
section
/-! DEFINITION. The step (00_scope.md R11; assumption logs 3, 5 and 12): an action of the host that is due,
else one step of the engine in a batch, else nothing. -/

namespace Sys2Proof.Machine

/-- One action of the host: a command word (a word that is no command is answered as
40_host_commands.md R171 says), a batch, an acknowledgement, the reset input. -/
def hostStep (a : HostAct) (s : State) : Result State :=
  match a with
  | .cmd w =>
    match decodeCmd w with
    | .ok i => exec i s
    | .error _ => malformedWord w s
  | .batch bytes => exec (.process bytes) s
  | .ack => exec .ack s
  | .powerOn => .next s.powerOn

/-- One step of the engine in a batch. -/
def engineStep (s : State) : Result State :=
  match s.todo with
  | .run i t => exec i t
  | .go t => .next t

/-- The step. Idle in `READY`, or stalled in `IN_NOTIFY` (60_exceptions.md R381), with nothing due from the
host, the state does not change (assumption log 12). -/
def step (s : State) : Host.Outcome State Fault Refusal :=
  match s.takeAction with
  | some (a, t) => hostStep a t
  | none => if s.phase = .inBatch then engineStep s.ticked else .next s

/-- `s` with the word `w` of opcode_table.json placed where the next step reads its instruction
(assumption log 3). -/
def State.withFetchWord (s : State) (nbits w : Nat) : State :=
  match tableUnit nbits w with
  | some c => s.withUnit c
  | none => s

end Sys2Proof.Machine
end

