-- ==== Sys2Proof/Safety.lean ====
section
/-! DEFINITION. What holds of every state of a run, in the terms the statements use: the invariant `Inv`
of the registers and the stores, and the invariant `BufInv` of the reassembler's buffers. -/

namespace Sys2Proof.Machine

/-! ## Runs -/

/-- The state after `n` steps. Every step gives a next state; a fault or a refusal would be `none`. -/
def runSteps : Nat → State → Option State
  | 0, s => some s
  | n + 1, s =>
    match step s with
    | .next t => runSteps n t
    | .fault _ => none
    | .refused _ => none

/-! ## Registers and stores -/

/-- The largest PCR, `(2^33 - 1) * 300 + 511` (45_packet_decoders.md R352). -/
def pcrMax : Nat := 2576980377811

/-- A descriptor of a namespace: `length` is the number of body bytes, and the decoded fields are those of
its (namespace, tag, body) (10_state.md R43). -/
def descriptorOk (cfg : Config) (ns : Namespace) (d : Descriptor) : Prop :=
  d.length.toNat = d.body.length ∧ d.info = infoOf cfg ns d.tag d.body

/-- Every descriptor list of the decoded tables, with its namespace. -/
def State.descLists (s : State) : List (Namespace × List Descriptor) :=
  (.si, s.pmt.programInfo) :: (.si, s.nit.networkDescriptors) :: (.ait, s.ait.commonDescriptors) ::
    (s.pmt.streams.map fun e => (.si, e.descriptors)) ++ (s.nit.streams.map fun e => (.si, e.descriptors)) ++
    (s.sdt.services.map fun e => (.si, e.descriptors)) ++ (s.eit.events.map fun e => (.si, e.descriptors)) ++
    (s.ait.applications.map fun e => (.ait, e.descriptors))

/-- A table that was never decoded holds its reset value: scalars 0, lists empty (10_state.md R34). -/
structure TablesOk (s : State) : Prop where
  pat : s.pat.valid = false → s.pat = {}
  pmt : s.pmt.valid = false → s.pmt = {}
  nit : s.nit.valid = false → s.nit = {}
  sdt : s.sdt.valid = false → s.sdt = {}
  eit : s.eit.valid = false → s.eit = {}
  tdt : s.tdt.valid = false → s.tdt = {}
  ait : s.ait.valid = false → s.ait = {}

/-- The invariant of the registers and the stores. -/
structure Inv (s : State) : Prop where
  /-- the sparse stores are in canonical form -/
  memory : Memory.wf s = true
  /-- a counter has `CNT_W` bits (10_state.md R26, R27) -/
  packets : s.packets ≤ counterMax s.cfg
  errors : s.errors ≤ counterMax s.cfg
  /-- the PCR is a `base * 300 + ext`, and 0 until one is received (R28) -/
  pcr : s.pcr.value.toNat ≤ pcrMax
  pcrUnset : s.pcr.valid = false → s.pcr.value = 0
  /-- an `IDLE` context has an empty buffer (42_section_reassembly_crc.md R217) -/
  idle : ∀ p, (s.ctxOf p).state = .idle → (s.ctxOf p).buf = []
  /-- a page that is not open has no lines (10_state.md R44) -/
  closed : ∀ k, (s.pageOf k).isOpen = false → (s.pageOf k).lines = []
  tables : TablesOk s
  descriptors : ∀ l ∈ s.descLists, ∀ d ∈ l.2, descriptorOk s.cfg l.1 d
  /-- the page of an outstanding notification of unit 9 is known and open (45_packet_decoders.md R357) -/
  ebuDone : s.ebuDone.isSome = true ↔ s.phase = .inNotify ∧ s.pending = .ebu
  ebuOpen : ∀ k, s.ebuDone = some k → (s.pageOf k).isOpen = true
  /-- `carry` is the head of one packet, and empty without cross-call buffering (10_state.md R32) -/
  carry : s.carry.length < packetLength
  carrySync : s.carry ≠ [] → s.cfg.xbuf = true ∧ byteAt s.carry 0 = s.cfg.syncByte
  /-- no batch is in progress in `READY` (R29) -/
  ready : s.phase = .ready → s.work = [] ∧ s.stream = [] ∧ s.pc = 0

/-! ## Buffers (42_section_reassembly_crc.md R217, R218) -/

/-- `BUF_CAP` (00_scope.md R9). -/
def bufCap : Nat := 4281

/-- The section at the front of a buffer is not complete yet, R217. -/
def incomplete (b : Bytes) : Prop :=
  b ≠ [] ∧ byteAt b 0 ≠ 0xFF#8 ∧ (b.length < 3 ∨ b.length < sectionTotal b)

/-- What R217 says of a context between packets. -/
def Ctx.settled (c : Ctx) : Prop :=
  (c.state = .idle ∧ c.buf = []) ∨ (c.state = .accumulating ∧ incomplete c.buf)

/-- A pending unit that can put payload bytes into a buffer. -/
def Work.carriesPayload : Work → Bool
  | .unit (.packet _) | .unit (.payloadPacket ..) | .unit (.payload ..) => true
  | _ => false

/-- The pending unit holds at most one packet's payload. -/
def Work.fits : Work → Prop
  | .unit (.payloadPacket _ pl) | .unit (.payload _ _ pl) => pl.length ≤ 184
  | .restart _ new => new.length ≤ 184
  | _ => True

/-- The engine will still drain the buffer of `p`. -/
def drainPending (p : Pid) (w : List Work) : Prop :=
  .unit (.drain p) ∈ w ∨ ∃ rs b, w.head? = some (.unit (.table p rs b)) ∧ b ≠ [] ∧ byteAt b 0 = 0xFF#8

/-- The invariant of the buffers: each is settled, or within `BUF_CAP` and about to be drained; a payload
is only handled when all are settled. -/
structure BufInv (s : State) : Prop where
  buffers : ∀ p, (s.ctxOf p).settled ∨
    ((s.ctxOf p).state = .accumulating ∧ (s.ctxOf p).buf.length ≤ bufCap ∧ drainPending p s.work)
  fits : ∀ w ∈ s.work, w.fits
  tail : ∀ w ∈ s.work.tail, w.carriesPayload = false
  head : ∀ w, s.work.head? = some w → w.carriesPayload = true → ∀ p, (s.ctxOf p).settled
  ready : s.phase = .ready → s.work = []

/-! ## Instructions by what they store -/

/-- The instructions that store no byte in the stores of 10_state.md R33 that hold bytes: IN, SECBUF, DESC, DSMCC
and EBU. TABLES is none of them: its records are fields, and their frame is said field by field. -/
def storesNothing : Instr → Bool
  | .setPidDsmcc _ | .setPidAit _ | .setPidPcr _ | .setPidEbu _ | .getErrors | .getPackets => true
  | .registerCb _ | .unregisterCb _ | .getField .. | .getListLen .. | .getDescListLenAll .. => true
  | .getDescListLenForTag .. | .getDescByIndex .. | .getDescByTag .. | .getDescField .. => true
  | .dsmccIsComplete | .dsmccDecode | .tspktRsv .. | .tspktPl .. | .tspktAf .. | .tspktAfpl .. => true
  | .pcrDecode .. | .secCrc .. | .secDispatch .. | .secPat _ | .secTdt _ | .secSt _ | .secOther _ => true
  | .descCa _ | .descIso639 _ | .descCarouselId _ | .descNetworkName _ | .descServiceList _ => true
  | .descService _ | .descLinkage _ | .descShortEvent _ | .descExtEvent _ | .descComponent _ => true
  | .descStreamId _ | .descContent _ | .descParental _ | .descTeletext _ | .descSubtitling _ => true
  | .descDataBcastId _ | .descAppSignalling _ | .descApplication _ | .descAppName _ => true
  | .descTransportProtocol _ | .descGeneric .. => true
  | .reset | .process _ | .ack | .secCc .. | .secStart .. | .secAppend .. | .secDrain _ | .secStuff _ => false
  | .secPmt _ | .secDsmcc _ | .secNit _ | .secSdt _ | .secEit _ | .secAit _ | .ebuHeader _ | .ebuLine .. => false

/-! ## What the reads answer (40_host_commands.md R152, R153; the field not returned is assumption log 21) -/

/-- The selectors `0x00` to `0x07` of a unit with a long header, with their values, R154. -/
def headerScalars (h : LongHeader) : List (Byte × BitVec 64) :=
  [(0x00#8, h.tableId.setWidth 64), (0x01#8, h.sectionSyntaxIndicator.setWidth 64), (0x02#8, h.sectionLength.setWidth 64),
   (0x03#8, h.tableIdExtension.setWidth 64), (0x04#8, h.versionNumber.setWidth 64),
   (0x05#8, h.currentNextIndicator.setWidth 64), (0x06#8, h.sectionNumber.setWidth 64),
   (0x07#8, h.lastSectionNumber.setWidth 64)]

/-- `GET_FIELD` of each listed selector answers the value beside it. -/
def scalarsRead (s : State) (u : UnitId) (l : List (Byte × BitVec 64)) : Prop :=
  ∀ f ∈ l, exec (.getField u f.1 0 0) s = .next (s.respond ⟨.ok, f.2, []⟩)

/-- `GET_FIELD` of each listed per-entry selector answers that field of the entry at every ordinal, and `NOT_FOUND`
past the end of the list. -/
def entriesRead {α : Type} (s : State) (u : UnitId) (l : List α) (fields : List (Byte × (α → BitVec 64))) : Prop :=
  ∀ f ∈ fields, ∀ i : BitVec 16, exec (.getField u f.1 i 0) s = .next (s.respond
    (match l[i.toNat]? with
     | some e => ⟨.ok, f.2 e, []⟩
     | none => ⟨.notFound, 0, []⟩))

/-- `GET_LIST_LEN` of the unit's main list answers `n`. -/
def lengthRead (s : State) (u : UnitId) (n : Nat) : Prop :=
  exec (.getListLen u 0x10#8 0) s = .next (s.respond ⟨.ok, BitVec.ofNat 64 n, []⟩)

/-! ## Synthetic units: sections and descriptors written from their fields (30_encoding.md R106, R107, R109) -/

/-- A descriptor region, written from the tag and body of each descriptor. -/
def descRegion (l : List (Byte × Bytes)) : Bytes := l.flatMap fun d => descriptorBytes d.1 d.2

/-- The bytes 0 to 7 of a section, its reserved bits 1. -/
def longHeaderBytes (h : LongHeader) : Bytes :=
  [h.tableId] ++ be16 (h.sectionSyntaxIndicator ++ 7#3 ++ h.sectionLength) ++ be16 h.tableIdExtension ++
    [3#2 ++ h.versionNumber ++ h.currentNextIndicator, h.sectionNumber, h.lastSectionNumber]

/-- An entry of a PAT section, R255 of 43_table_decoders.md. -/
def patEntryBytes (e : PatEntry) : Bytes := be16 e.programNumber ++ be16 (7#3 ++ e.pid)

/-- A PAT section. -/
def patSection (h : LongHeader) (programs : List PatEntry) (crc : BitVec 32) : Bytes :=
  longHeaderBytes h ++ programs.flatMap patEntryBytes ++ be32 crc

/-- An elementary stream of a synthetic PMT. -/
structure SynthStream where
  streamType : Byte
  elementaryPid : Pid
  descriptors : List (Byte × Bytes)
deriving DecidableEq, Repr

/-- A declared inner length with its reserved bits 1. -/
def len12Bytes (r : Bytes) : Bytes := be16 (15#4 ++ BitVec.ofNat 12 r.length)

/-- An entry of a PMT section, R256 of 43_table_decoders.md. -/
def pmtStreamBytes (x : SynthStream) : Bytes :=
  [x.streamType] ++ be16 (7#3 ++ x.elementaryPid) ++ len12Bytes (descRegion x.descriptors) ++ descRegion x.descriptors

/-- A PMT section. -/
def pmtSection (h : LongHeader) (pcrPid : Pid) (info : List (Byte × Bytes)) (streams : List SynthStream)
    (crc : BitVec 32) : Bytes :=
  longHeaderBytes h ++ be16 (7#3 ++ pcrPid) ++ len12Bytes (descRegion info) ++ descRegion info ++
    streams.flatMap pmtStreamBytes ++ be32 crc

/-- Every body of a synthetic region fits its length byte, and the region its 12-bit length. -/
def regionFits (l : List (Byte × Bytes)) : Prop := (∀ d ∈ l, d.2.length < 256) ∧ (descRegion l).length < 4096

/-- The descriptors of a synthetic region. -/
def synthList (cfg : Config) (ns : Namespace) (l : List (Byte × Bytes)) : List Descriptor :=
  l.map fun d => mkDescriptor d.1 d.2 (infoOf cfg ns d.1 d.2)

end Sys2Proof.Machine
end

