-- ==== Sys2Proof/WellFormed.lean ====
section
/-! DEFINITION. Which instructions the encodings of 30_encoding.md admit: the operands whose Lean type is
wider than the field that carries them. -/

namespace Sys2Proof

/-- A whole section: its length is the one its first 3 bytes declare (42_section_reassembly_crc.md R213). -/
def wholeSection (sec : Bytes) : Bool := 3 ≤ sec.length && sec.length == 3 + (sectionLength sec).toNat

/-- A whole section whose `table_id` is neither padding nor stuffing. -/
def plainSection (cfg : Config) (sec : Bytes) : Bool :=
  wholeSection sec && byteAt sec 0 != 0xFF#8 && !cfg.stuffingIds.contains (byteAt sec 0)

/-- A whole section that the decoder of `r` accepts. -/
def sectionFor (cfg : Config) (r : Role) (sec : Bytes) : Bool :=
  plainSection cfg sec && accepted cfg r (byteAt sec 0)

/-- A descriptor body: `descriptor_length` has 8 bits (30_encoding.md R109). -/
def bodyFits (body : Bytes) : Bool := body.length < 256

/-- A body that fits, of a tag that the map gives this kind (30_encoding.md R114, R115): with the default maps every
kind's own tag, with others only a tag no earlier kind has (assumption log 17). -/
def descFits (cfg : Config) (ns : Namespace) (tag : Byte) (kind : DescKind) (body : Bytes) : Bool :=
  bodyFits body && kindOf cfg ns tag == kind

/-- A payload slice: 0 to 184 bytes (20_memory.md R74). -/
def payloadFits (payload : Bytes) : Bool := payload.length ≤ 184

/-- A packet has 184 bytes after its header (30_encoding.md R101). -/
def restFits (rest : Bytes) : Bool := rest.length == 184

/-- The instructions the encodings admit. -/
def Instr.wf (cfg : Config) : Instr → Bool
  | .reset | .getErrors | .getPackets | .dsmccIsComplete | .dsmccDecode | .ack => true
  | .setPidDsmcc _ | .setPidAit _ | .setPidPcr _ | .setPidEbu _ | .registerCb _ | .unregisterCb _ => true
  | .getField .. | .getListLen .. | .getDescListLenAll .. | .getDescListLenForTag .. => true
  | .getDescByIndex .. | .getDescByTag .. | .getDescField .. | .process _ | .pcrDecode .. => true
  | .tspktRsv _ rest | .tspktPl _ rest | .tspktAf _ rest | .tspktAfpl _ rest => restFits rest
  | .secCc _ payload | .secStart _ payload | .secAppend _ payload => payloadFits payload
  | .secDrain _ | .secStuff _ => true
  | .secCrc _ sec => wholeSection sec && !cfg.stuffingIds.contains (byteAt sec 0)
  | .secDispatch _ sec => wholeSection sec
  | .secPat sec => sectionFor cfg .pat sec
  | .secPmt sec => sectionFor cfg .pmt sec
  | .secDsmcc sec => sectionFor cfg .dsmcc sec
  | .secNit sec => sectionFor cfg .nit sec
  | .secSdt sec => sectionFor cfg .sdt sec
  | .secEit sec => sectionFor cfg .eit sec
  | .secTdt sec => sectionFor cfg .tdt sec
  | .secAit sec => sectionFor cfg .ait sec
  | .secSt sec => wholeSection sec && byteAt sec 0 != 0xFF#8 && cfg.stuffingIds.contains (byteAt sec 0)
  | .secOther sec => plainSection cfg sec
  | .descCa body => descFits cfg .si cfg.descTags.ca .ca body
  | .descIso639 body => descFits cfg .si cfg.descTags.iso639 .iso639 body
  | .descCarouselId body => descFits cfg .si cfg.descTags.carouselId .carouselId body
  | .descNetworkName body => descFits cfg .si cfg.descTags.networkName .networkName body
  | .descServiceList body => descFits cfg .si cfg.descTags.serviceList .serviceList body
  | .descService body => descFits cfg .si cfg.descTags.service .service body
  | .descLinkage body => descFits cfg .si cfg.descTags.linkage .linkage body
  | .descShortEvent body => descFits cfg .si cfg.descTags.shortEvent .shortEvent body
  | .descExtEvent body => descFits cfg .si cfg.descTags.extEvent .extEvent body
  | .descComponent body => descFits cfg .si cfg.descTags.component .component body
  | .descStreamId body => descFits cfg .si cfg.descTags.streamId .streamId body
  | .descContent body => descFits cfg .si cfg.descTags.content .content body
  | .descParental body => descFits cfg .si cfg.descTags.parental .parental body
  | .descTeletext body => descFits cfg .si cfg.descTags.teletext .teletext body
  | .descSubtitling body => descFits cfg .si cfg.descTags.subtitling .subtitling body
  | .descDataBcastId body => descFits cfg .si cfg.descTags.dataBcastId .dataBcastId body
  | .descAppSignalling body => descFits cfg .si cfg.descTags.appSignalling .appSignalling body
  | .descApplication body => descFits cfg .ait cfg.descTags.application .application body
  | .descAppName body => descFits cfg .ait cfg.descTags.appName .appName body
  | .descTransportProtocol body => descFits cfg .ait cfg.descTags.transportProtocol .transportProtocol body
  | .descGeneric ns tag body => descFits cfg ns tag .generic body
  | .ebuHeader _ | .ebuLine .. => true

end Sys2Proof
end

