-- ==== Sys2Proof/Certificates/Slice0/Obligations.lean ====
section
/-! DEFINITION. The statements for the provers, from the numbered rules of spec/. Each docstring names the
rule; a statement about the model's own conventions names the log entry instead. -/

section

open Sys2Proof Sys2Proof.Machine

/-! ## Encodings -/

/-- Decoding the encoding of any well-formed instruction gives it back, with every operand at every value
its encoding admits (30_encoding.md R100 to R121). -/
def Obligations.DecodeEncode : Prop :=
  ∀ (cfg : Config) (i : Instr), i.wf cfg = true → decode cfg (encode cfg i) = .ok i

/-- A command word and a packet have one meaning: the unit of the instruction they decode to is that word, that
packet, bit for bit (30_encoding.md R101, R111, R120, R121). -/
def Obligations.WordsHaveOneMeaning : Prop :=
  (∀ (cfg : Config) (w : BitVec 64) (i : Instr), decodeCmd w = .ok i → encode cfg i = .cmdWord w ∧ i.wf cfg = true) ∧
  (∀ (cfg : Config) (p : Bytes) (i : Instr), decodePacket cfg.syncByte p = .ok i →
     encode cfg i = .packet p ∧ i.wf cfg = true)

/-- A few units written out from the tables of 30_encoding.md (R101, R109, R112, R115, R121) and the
examples of 40_host_commands.md (R144) decode to what they stand for, and two words that are no command
are refused by name. -/
def Obligations.SpecUnitsDecode : Prop :=
  decodeCmd 0x0200000000000BB9#64 = .ok (.setPidDsmcc 0x0BB9#13) ∧
  decodeCmd 0x131210001000000A#64 = .ok (.getDescListLenForTag .pmt 0x21#8 1#16 0x0A#8) ∧
  decodeCmd 0x0100000000000001#64 = .error .unusedFieldSet ∧
  decodeCmd 0x08A0000000000000#64 = .error .unitTooLarge ∧
  decodePacket 0x47#8 ([0x47#8, 0x40#8, 0x00#8, 0x15#8] ++ List.replicate 184 0#8) =
    .ok (.tspktPl ⟨false, true, false, 0#13, 0#2, 5#4⟩ (List.replicate 184 0#8)) ∧
  decode {} (.table 0#13 [.tdt] [0x70#8, 0x70#8, 0#8]) = .ok (.secTdt [0x70#8, 0x70#8, 0#8]) ∧
  decode {} (.descriptor .si [0x0A#8, 0#8]) = .ok (.descIso639 []) ∧
  decode {} (.descriptor .ait [0x0A#8, 0#8]) = .ok (.descGeneric .ait 0x0A#8 [])

/-- A descriptor region written from its descriptors walks back to them, in order and with the fields of
their kinds (44_descriptors.md R300, R301). -/
def Obligations.DescriptorRegionRoundTrip : Prop :=
  ∀ (cfg : Config) (ns : Namespace) (l : List (Byte × Bytes)), (∀ d ∈ l, d.2.length < 256) →
    descList cfg ns (descRegion l) = synthList cfg ns l

/-! ## The step -/

/-- A step runs the decoded instruction: a due command word; the unit, the region's first descriptor or
the packet the engine finds next. Around `exec` the engine counts the host's waiting, takes the unit off
its continuation, and after a packet moves the cursor by 188 (41_packet_deframe_route.md R181). A unit that is no
instruction (a packet on the PCR PID without a PCR: 45_packet_decoders.md R351, R352) has no effect, a region with no
whole descriptor left ends its walk (44_descriptors.md R300), and the second half of `SEC.START` starts the new section
or leaves the context `IDLE` (42_section_reassembly_crc.md R212). The granularity is the model's, assumption log 5. -/
def Obligations.StepRunsInstruction : Prop :=
  (∀ (s : State) (w : BitVec 64) (n : Option Nat) (rest : List HostItem) (i : Instr),
    s.host = ⟨.cmd w, n⟩ :: rest → (s.phase ≠ .inBatch ∨ n = some 0) → decodeCmd w = .ok i →
    step s = exec i { s with host := rest }) ∧
  (∀ (s : State) (bytes : Bytes) (n : Option Nat) (rest : List HostItem),
    s.host = ⟨.batch bytes, n⟩ :: rest → (s.phase ≠ .inBatch ∨ n = some 0) →
    step s = exec (.process bytes) { s with host := rest }) ∧
  (∀ (s : State) (n : Option Nat) (rest : List HostItem),
    s.host = ⟨.ack, n⟩ :: rest → (s.phase ≠ .inBatch ∨ n = some 0) → step s = exec .ack { s with host := rest }) ∧
  (∀ (s : State) (c : Code) (rest : List Work) (i : Instr), s.phase = .inBatch → s.takeAction = none →
    s.work = .unit c :: rest → decode s.cfg c = .ok i →
    step s = exec i { s with work := rest, host := tickHost s.host }) ∧
  (∀ (s : State) (c : Code) (rest : List Work) (e : DecodeError), s.phase = .inBatch → s.takeAction = none →
    s.work = .unit c :: rest → decode s.cfg c = .error e →
    step s = .next { s with work := rest, host := tickHost s.host }) ∧
  (∀ (s : State) (ns : Namespace) (r r' : Bytes) (rest : List Work) (i : Instr), s.phase = .inBatch →
    s.takeAction = none → s.work = .region ns r :: rest → nextDescriptor s.cfg ns r = some (i, r') →
    step s = exec i { s with work := .region ns r' :: rest, host := tickHost s.host }) ∧
  (∀ (s : State) (ns : Namespace) (r : Bytes) (rest : List Work), s.phase = .inBatch → s.takeAction = none →
    s.work = .region ns r :: rest → nextDescriptor s.cfg ns r = none →
    step s = .next { s with work := rest, host := tickHost s.host }) ∧
  (∀ (s : State) (pid : Pid) (new : Bytes) (rest : List Work), s.phase = .inBatch → s.takeAction = none →
    s.work = .restart pid new :: rest → Memory.wf s = true →
    ∃ t, step s = .next t ∧
      t = { s with work := (if new = [] then rest else .unit (.drain pid) :: rest), host := tickHost s.host, ctx := t.ctx } ∧
      t.ctxOf pid = (if new = [] then { s.ctxOf pid with state := .idle, buf := [] }
                     else { s.ctxOf pid with state := .accumulating, buf := new }) ∧
      ∀ q, q ≠ pid → t.ctxOf q = s.ctxOf q) ∧
  (∀ (s : State) (i : Instr), s.phase = .inBatch → s.takeAction = none → s.work = [] →
    decodePacket s.cfg.syncByte ((s.stream.drop s.pc).take 188) = .ok i →
    step s = exec i { s with work := [.endPacket], host := tickHost s.host }) ∧
  (∀ (s : State) (rest : List Work), s.phase = .inBatch → s.takeAction = none → s.work = .endPacket :: rest →
    step s = .next { s with work := rest, pc := s.pc + 188, host := tickHost s.host })

/-- Every instruction and every step gives a next state: nothing faults, nothing is refused, no state is
stuck (00_scope.md R11). -/
def Obligations.EverythingGoesOn : Prop :=
  (∀ (i : Instr) (s : State), ∃ t, exec i s = .next t) ∧ ∀ s : State, ∃ t, step s = .next t

/-- While a notification stands and the host does nothing, nothing changes (60_exceptions.md R381); the same in
`READY` (that such a step is a step at all is assumption log 12). The reset input wins in every phase, and
gives every element its power-on value (70_reset_and_hazards.md R410); what the host still means to do, what
was already put out and the parameters are not the block's (assumption log 11). The equation also fixes `pending`, the
transient elements and the model's own fields, to which R47 and R410 give no value: their zeros and empty lists are
assumption log 7. -/
def Obligations.StallAndPowerOn : Prop :=
  (∀ s : State, s.phase ≠ .inBatch → s.host = [] → step s = .next s) ∧
  (∀ (s : State) (n : Option Nat) (rest : List HostItem), s.host = ⟨.powerOn, n⟩ :: rest →
     (s.phase ≠ .inBatch ∨ n = some 0) →
     ∃ t, step s = .next t ∧ t = { State.reset with cfg := s.cfg, host := rest, out := s.out } ∧
       t.phase = .ready ∧ t.packets = 0 ∧ t.errors = 0 ∧ t.cbEn = 0 ∧ t.pcr = ⟨false, 0⟩ ∧
       t.bind.dsmcc.valid = false ∧ t.bind.ait.valid = false ∧ t.bind.pcr.valid = false ∧ t.bind.ebu.valid = false ∧
       ∀ p, t.ctxOf p = ⟨.idle, [], false, 0⟩)

/-- The values the spec gives the machine at power-on (10_state.md R47). -/
def Obligations.ResetValues : Prop :=
  State.reset.phase = .ready ∧ State.reset.packets = 0 ∧ State.reset.errors = 0 ∧ State.reset.cbEn = 0 ∧
  State.reset.bind = ⟨⟨false, 0⟩, ⟨false, 0⟩, ⟨false, 0⟩, ⟨false, 0⟩⟩ ∧ State.reset.pcr = ⟨false, 0⟩ ∧
  State.reset.carry = [] ∧ State.reset.pat = {} ∧ State.reset.pmt = {} ∧ State.reset.nit = {} ∧
  State.reset.sdt = {} ∧ State.reset.eit = {} ∧ State.reset.tdt = {} ∧ State.reset.ait = {} ∧
  State.reset.dsmcc = ⟨.collecting, []⟩ ∧ State.reset.ebu = [] ∧
  (∀ p, State.reset.ctxOf p = ⟨.idle, [], false, 0⟩) ∧ ∀ k, State.reset.pageOf k = ⟨false, []⟩

/-! ## Framing (41_packet_deframe_route.md R181) -/

/-- The framing loop where no packet stands. A byte that is not a sync byte: one `FRAMING_SYNC`, and the cursor
goes to the next byte equal to `SYNC_BYTE`, or to the end of the batch. A truncated trailing packet: one
`FRAMING_TRUNC` when `XBUF` is false, kept in `carry` without an error when it is true. The end: `READY` again,
`batch_ok` exactly when no error was raised. Nothing else changes (R180, R181; 60_exceptions.md R373, R374;
clearing the stream at the end is the model's, assumption log 5). -/
def Obligations.FramingTurns : Prop :=
  (∀ s : State, s.phase = .inBatch → s.takeAction = none → s.work = [] → s.pc < s.stream.length →
     s.stream[s.pc]? ≠ some s.cfg.syncByte →
     ∃ j, s.pc < j ∧ j ≤ s.stream.length ∧ (∀ k, s.pc < k → k < j → s.stream[k]? ≠ some s.cfg.syncByte) ∧
       (j < s.stream.length → s.stream[j]? = some s.cfg.syncByte) ∧
       step s = .next { s with errors := satInc s.cfg s.errors, batchErr := true, out := s.out ++ [.error .framingSync],
                               pc := j, host := tickHost s.host }) ∧
  (∀ s : State, s.phase = .inBatch → s.takeAction = none → s.work = [] → s.pc < s.stream.length →
     s.stream[s.pc]? = some s.cfg.syncByte → s.stream.length - s.pc < 188 →
     step s = .next
       (if s.cfg.xbuf then { s with carry := s.stream.drop s.pc, pc := s.stream.length, host := tickHost s.host }
        else { s with errors := satInc s.cfg s.errors, batchErr := true, out := s.out ++ [.error .framingTrunc],
                      pc := s.stream.length, host := tickHost s.host })) ∧
  (∀ s : State, s.phase = .inBatch → s.takeAction = none → s.work = [] → s.stream.length ≤ s.pc →
     step s = .next { s with phase := .ready, stream := [], pc := 0, out := s.out ++ [.batchDone (!s.batchErr)],
                             host := tickHost s.host })

/-- A batch of exactly one packet on a PID with no role and no active reassembly, with nothing carried over:
`packets` + 1, no error, `batch_ok = 1`, and no other state change but the header latch
(41_packet_deframe_route.md R180, R186). That it takes four steps is the model's granularity, assumption log 5. -/
def Obligations.UnroutedPacketBatch : Prop :=
  ∀ (s : State) (p : Bytes) (i : Instr), s.phase = .ready → s.carry = [] → s.host = [⟨.batch p, none⟩] →
    decodePacket s.cfg.syncByte p = .ok i → s.bind.pcr.is (headOf (u32 p 0)).pid = false →
    s.bind.ebu.is (headOf (u32 p 0)).pid = false → (s.ctxOf (headOf (u32 p 0)).pid).state = .idle →
    isTablePid s (headOf (u32 p 0)).pid = false →
    ∃ h, runSteps 4 s = some { s with packets := satInc s.cfg s.packets, hdr := h, batchErr := false,
                                      out := s.out ++ [.batchDone true], host := [], stream := [], pc := 0, work := [] }

/-- A batch of one packet that carries a whole PAT section, on a context at its reset value and with no PAT held:
`TablePat` then holds exactly that section's record, its notification fires exactly once, and nothing is
counted but the packet (43_table_decoders.md R255, the source's property; 42_section_reassembly_crc.md R211 to R221;
60_exceptions.md R380 to R382). That it takes 13 steps is the model's granularity, assumption log 5. Where a
configuration gives the PID another role that accepts the same `table_id`, that `SEC.PAT` decodes the section is the
model's choice, assumption log 16. -/
def Obligations.PatPacketBatch : Prop :=
  ∀ (s : State) (h : PktHead) (sec pad : Bytes) (r : Pat), s.phase = .ready → s.carry = [] → s.work = [] →
    h.pusi = true → h.pid = s.cfg.pidPat → s.bind.pcr.is h.pid = false → s.bind.ebu.is h.pid = false →
    s.ctxOf h.pid = {} → Memory.wf s = true → s.cbEnabled .pat = true → s.pat.valid = false →
    accepted s.cfg .pat (byteAt sec 0) = true → byteAt sec 0 ≠ 0xFF#8 → s.cfg.stuffingIds.contains (byteAt sec 0) = false →
    wholeSection sec = true → sec.length ≤ 182 → crcValid s.cfg sec = true →
    parsePat s.cfg sec = some r → pad = List.replicate (183 - sec.length) 0xFF#8 →
    s.host = [⟨.batch (packetBytes s.cfg.syncByte 1#2 h (0#8 :: sec ++ pad)), none⟩, ⟨.ack, none⟩] →
    ∃ t, runSteps 13 s = some t ∧ t.pat = r ∧ t.packets = satInc s.cfg s.packets ∧ t.errors = s.errors ∧
      t.out = s.out ++ [.notify .pat, .batchDone true] ∧ t.phase = .ready ∧ t.host = [] ∧
      t.ctxOf h.pid = ⟨.idle, [], true, h.cc⟩ ∧ t.pmt = s.pmt ∧ t.nit = s.nit ∧ t.sdt = s.sdt ∧ t.eit = s.eit ∧
      t.tdt = s.tdt ∧ t.ait = s.ait ∧ t.dsmcc = s.dsmcc ∧ t.ebu = s.ebu ∧ t.pcr = s.pcr ∧ t.bind = s.bind

/-- The walk of a descriptor region, run one descriptor instruction a step, builds the list the table
decoders build in one step (44_descriptors.md R300; that both ways exist is assumption log 6). -/
def Obligations.RegionRunIsDescList : Prop :=
  ∀ (s : State) (ns : Namespace) (r : Bytes) (rest : List Work), s.phase = .inBatch → s.host = [] →
    s.work = .region ns r :: rest →
    runSteps ((descList s.cfg ns r).length + 1) s =
      some { s with work := rest, dlist := s.dlist ++ descList s.cfg ns r }

/-! ## Invariants -/

/-- Both invariants hold after power-on (10_state.md R47). That no bytes and no cursor are left in `READY` then
(`Inv.ready`) and that no work is pending rest on the model's values, assumption log 7. -/
def Obligations.InvariantsAtReset : Prop :=
  (Inv State.reset) ∧
  (BufInv State.reset)

/-- Every step keeps the invariant of the registers and the stores (10_state.md R26 to R44). Its clauses `ebuDone` and
`ebuOpen` speak of the model's own field, assumption log 14, and `ready` of how a batch ends, assumption log 5. -/
def Obligations.InvEveryStep : Prop := ∀ s t : State, Inv s → step s = .next t → Inv t

/-- Every step keeps the invariant of the buffers (42_section_reassembly_crc.md R217). -/
def Obligations.BufInvEveryStep : Prop := ∀ s t : State, Inv s → BufInv s → step s = .next t → BufInv t

/-- `len(C.buf) <= 4281` at every instant, and between packets every context is either `IDLE` and empty or
`ACCUMULATING` with an incomplete section that does not start with `0xFF` (42_section_reassembly_crc.md
R217, R218). -/
def Obligations.BufferBound : Prop :=
  ∀ s : State, BufInv s → (∀ p, (s.ctxOf p).buf.length ≤ 4281) ∧
    (s.work = [] ∨ s.work = [.endPacket] → ∀ p,
      ((s.ctxOf p).state = .idle ∧ (s.ctxOf p).buf = []) ∨
      ((s.ctxOf p).state = .accumulating ∧ 1 ≤ (s.ctxOf p).buf.length ∧ byteAt (s.ctxOf p).buf 0 ≠ 0xFF#8 ∧
        ((s.ctxOf p).buf.length < 3 ∨ (s.ctxOf p).buf.length < sectionTotal (s.ctxOf p).buf)))

/-- The two counters never fall but by `RESET` (60_exceptions.md R390); of the instructions, only the continuity
check and the CRC check count an error (R370): the framing errors are the framing loop's. -/
def Obligations.CounterSources : Prop :=
  (∀ (i : Instr) (s t : State), exec i s = .next t → i ≠ .reset → s.packets ≤ t.packets ∧ s.errors ≤ t.errors) ∧
  (∀ (i : Instr) (s t : State), exec i s = .next t → t.errors ≠ s.errors →
     i = .reset ∨ (∃ p b, i = .secCc p b) ∨ ∃ p b, i = .secCrc p b)

/-- A binding changes by its `SET_PID` command alone, a slot by `REGISTER_CB` and `UNREGISTER_CB` alone
(10_state.md R24, R25), and no instruction changes a parameter (R46). -/
def Obligations.ConfigurationFrame : Prop :=
  ∀ (i : Instr) (s t : State), exec i s = .next t →
    (t.bind.dsmcc ≠ s.bind.dsmcc → ∃ p, i = .setPidDsmcc p) ∧ (t.bind.ait ≠ s.bind.ait → ∃ p, i = .setPidAit p) ∧
    (t.bind.pcr ≠ s.bind.pcr → ∃ p, i = .setPidPcr p) ∧ (t.bind.ebu ≠ s.bind.ebu → ∃ p, i = .setPidEbu p) ∧
    (t.cbEn ≠ s.cbEn → ∃ u, i = .registerCb u ∨ i = .unregisterCb u) ∧ t.cfg = s.cfg

/-- Nothing but the events of 60_exceptions.md R383 raises a notification, each for its own unit, and only
with its slot enabled. -/
def Obligations.NotifySources : Prop :=
  ∀ (i : Instr) (s t : State), exec i s = .next t → s.phase ≠ .inNotify → t.phase = .inNotify →
    s.cbEnabled t.pending = true ∧
    ((t.pending = .pat ∧ ∃ b, i = .secPat b) ∨ (t.pending = .pmt ∧ ∃ b, i = .secPmt b) ∨
     (t.pending = .nit ∧ ∃ b, i = .secNit b) ∨ (t.pending = .sdt ∧ ∃ b, i = .secSdt b) ∨
     (t.pending = .eit ∧ ∃ b, i = .secEit b) ∨ (t.pending = .tdt ∧ ∃ b, i = .secTdt b) ∨
     (t.pending = .ait ∧ ∃ b, i = .secAit b) ∨ (t.pending = .dsmcc ∧ ∃ b, i = .secDsmcc b) ∨
     (t.pending = .pcr ∧ ∃ p a f, i = .pcrDecode p a f) ∨ (t.pending = .ebu ∧ ∃ k, i = .ebuHeader k))

/-- The decoded state of a unit changes by its own decoder alone, and by `RESET`; that of unit 9 by the EBU
events and the acknowledgement as well (43_table_decoders.md R250, 45_packet_decoders.md R351, R355). -/
def Obligations.DecodedStateFrame : Prop :=
  ∀ (i : Instr) (s t : State), exec i s = .next t → i ≠ .reset →
    (t.pat ≠ s.pat → ∃ b, i = .secPat b) ∧ (t.pmt ≠ s.pmt → ∃ b, i = .secPmt b) ∧
    (t.nit ≠ s.nit → ∃ b, i = .secNit b) ∧ (t.sdt ≠ s.sdt → ∃ b, i = .secSdt b) ∧
    (t.eit ≠ s.eit → ∃ b, i = .secEit b) ∧ (t.tdt ≠ s.tdt → ∃ b, i = .secTdt b) ∧
    (t.ait ≠ s.ait → ∃ b, i = .secAit b) ∧ (t.dsmcc ≠ s.dsmcc → ∃ b, i = .secDsmcc b) ∧
    (t.pcr ≠ s.pcr → ∃ p a f, i = .pcrDecode p a f) ∧
    (t.ebu ≠ s.ebu → (∃ k, i = .ebuHeader k) ∨ (∃ k r d, i = .ebuLine k r d) ∨ i = .ack)

/-- The instructions that store no byte in IN, SECBUF, DESC, DSMCC and EBU leave every byte of these stores
(10_state.md R33). TABLES holds records, not bytes: `DecodedStateFrame` and the commit statements say its frame. -/
def Obligations.NoStoreNoChange : Prop :=
  ∀ (i : Instr) (s t : State), storesNothing i = true → exec i s = .next t → ∀ a, readByte t a = readByte s a

/-- Where the storing instructions store bytes: a reassembler operation only in the buffer of its PID, a table
decoder only in the descriptors of its unit (beside its record in TABLES, of which `DecodedStateFrame` speaks), the
DSM-CC collector and the EBU accumulator only in their stores (10_state.md R33). -/
def Obligations.StoresOnlyThere : Prop :=
  (∀ (pid : Pid) (b : Bytes) (s t : State) (a : MemAddr), Memory.wf s = true → (∀ k, a ≠ .secbuf pid k) →
    (exec (.secCc pid b) s = .next t ∨ exec (.secStart pid b) s = .next t ∨ exec (.secAppend pid b) s = .next t ∨
      exec (.secDrain pid) s = .next t ∨ exec (.secStuff pid) s = .next t) → readByte t a = readByte s a) ∧
  (∀ (sec : Bytes) (s t : State) (a : MemAddr),
    (exec (.secPmt sec) s = .next t → (∀ v i j k, a ≠ .desc .pmt v i j k) → readByte t a = readByte s a) ∧
    (exec (.secNit sec) s = .next t → (∀ v i j k, a ≠ .desc .nit v i j k) → readByte t a = readByte s a) ∧
    (exec (.secSdt sec) s = .next t → (∀ v i j k, a ≠ .desc .sdt v i j k) → readByte t a = readByte s a) ∧
    (exec (.secEit sec) s = .next t → (∀ v i j k, a ≠ .desc .eit v i j k) → readByte t a = readByte s a) ∧
    (exec (.secAit sec) s = .next t → (∀ v i j k, a ≠ .desc .ait v i j k) → readByte t a = readByte s a) ∧
    (exec (.secDsmcc sec) s = .next t → (∀ j k, a ≠ .dsmcc j k) → readByte t a = readByte s a)) ∧
  (∀ (key : EbuKey) (row : Byte) (d : Bytes) (s t : State) (a : MemAddr), Memory.wf s = true →
    (∀ j k, a ≠ .ebu key j k) → (exec (.ebuHeader key) s = .next t ∨ exec (.ebuLine key row d) s = .next t) →
    readByte t a = readByte s a)

/-! ## Errors and notifications (60_exceptions.md) -/

/-- `raise E(code)` counts exactly one error until saturation, marks the batch, and changes nothing else but the
model's trace (R371). `notify(u)`: with the slot enabled the unit number is presented and the engine stalls,
with it disabled nothing happens (R380); it changes exactly `phase` and `pending` (R385). That the label and the
notification are kept in the list `out` is the model's choice, assumption log 4. -/
def Obligations.RaiseAndNotify : Prop :=
  (∀ (s : State) (c : ErrCode),
     s.raise c = { s with errors := if s.errors < 2 ^ s.cfg.cntW - 1 then s.errors + 1 else s.errors,
                          batchErr := true, out := s.out ++ [.error c] }) ∧
  (∀ (s : State) (u : UnitId),
     (s.cbEn.getLsbD (unitNumber u).toNat = true →
       s.notify u = { s with pending := u, phase := .inNotify, out := s.out ++ [.notify u] }) ∧
     (s.cbEn.getLsbD (unitNumber u).toNat = false → s.notify u = s))

/-- `ACK` in `IN_NOTIFY` goes back to the batch and changes nothing else, but that the lines of the completed
page are cleared when unit 9 was pending; in another phase it is `REFUSED` (R382). The model names the completed page
by `ebuDone` (assumption log 14) and gives the refusal as a response (assumption log 19). -/
def Obligations.AckReturns : Prop :=
  ∀ s : State,
    (s.phase ≠ .inNotify → exec .ack s = .next (s.respond .refused)) ∧
    (s.phase = .inNotify → s.pending ≠ .ebu → exec .ack s = .next { s with phase := .inBatch }) ∧
    (s.phase = .inNotify → s.pending = .ebu → ∀ k, s.ebuDone = some k → Memory.wf s = true →
      ∃ t, exec .ack s = .next t ∧ t = { s with phase := .inBatch, ebuDone := none, ebu := t.ebu } ∧
        t.pageOf k = ⟨(s.pageOf k).isOpen, []⟩ ∧ ∀ j, j ≠ k → t.pageOf j = s.pageOf j)

/-! ## Host commands (40_host_commands.md)

Every response is written out whole. The field of an `OK` response that its command does not return is 0 or `[]` by
the model's choice, assumption log 21. -/

/-- `RESET` in `READY` clears the accumulated and decoded state and the counters, and keeps the bindings and
the slots (R140). The value and the bytes of its `OK` are the model's, assumption log 21; so is that `pending` and the
transient elements keep what they hold, assumption log 7. -/
def Obligations.ResetClears : Prop :=
  decodeCmd 0x0100000000000000#64 = .ok .reset ∧
  ∀ s : State, s.phase = .ready →
    exec .reset s = .next
      { s with packets := 0, errors := 0, pcr := ⟨false, 0⟩, ctx := [], carry := [], pat := {}, pmt := {}, nit := {},
               sdt := {}, eit := {}, tdt := {}, ait := {}, dsmcc := ⟨.collecting, []⟩, ebu := [],
               out := s.out ++ [.response ⟨.ok, 0, []⟩] }

/-- A `SET_PID` in `READY` binds its role to a PID no other role holds and no table has; else it is
`REJECTED` and nothing changes (R143 to R147; the unused fields of the `OK` are assumption log 21). -/
def Obligations.SetPidBinds : Prop :=
  ∀ (s : State) (pid : Pid), s.phase = .ready →
    (pid ∉ [s.cfg.pidPat, s.cfg.pidNit, s.cfg.pidSdt, s.cfg.pidEit, s.cfg.pidTdt] →
      ((∀ b ∈ [s.bind.ait, s.bind.pcr, s.bind.ebu], ¬(b.valid = true ∧ b.pid = pid)) →
        exec (.setPidDsmcc pid) s = .next { s with bind := { s.bind with dsmcc := ⟨true, pid⟩ }, out := s.out ++ [.response ⟨.ok, 0, []⟩] }) ∧
      ((∀ b ∈ [s.bind.dsmcc, s.bind.pcr, s.bind.ebu], ¬(b.valid = true ∧ b.pid = pid)) →
        exec (.setPidAit pid) s = .next { s with bind := { s.bind with ait := ⟨true, pid⟩ }, out := s.out ++ [.response ⟨.ok, 0, []⟩] }) ∧
      ((∀ b ∈ [s.bind.dsmcc, s.bind.ait, s.bind.ebu], ¬(b.valid = true ∧ b.pid = pid)) →
        exec (.setPidPcr pid) s = .next { s with bind := { s.bind with pcr := ⟨true, pid⟩ }, out := s.out ++ [.response ⟨.ok, 0, []⟩] }) ∧
      ((∀ b ∈ [s.bind.dsmcc, s.bind.ait, s.bind.pcr], ¬(b.valid = true ∧ b.pid = pid)) →
        exec (.setPidEbu pid) s = .next { s with bind := { s.bind with ebu := ⟨true, pid⟩ }, out := s.out ++ [.response ⟨.ok, 0, []⟩] })) ∧
    (pid ∈ [s.cfg.pidPat, s.cfg.pidNit, s.cfg.pidSdt, s.cfg.pidEit, s.cfg.pidTdt] →
      ∀ i ∈ [Instr.setPidDsmcc pid, .setPidAit pid, .setPidPcr pid, .setPidEbu pid],
        exec i s = .next (s.respond ⟨.rejected, 0, []⟩)) ∧
    (s.bind.dsmcc = ⟨true, pid⟩ → ∀ i ∈ [Instr.setPidAit pid, .setPidPcr pid, .setPidEbu pid],
        exec i s = .next (s.respond ⟨.rejected, 0, []⟩)) ∧
    (s.bind.ait = ⟨true, pid⟩ → ∀ i ∈ [Instr.setPidDsmcc pid, .setPidPcr pid, .setPidEbu pid],
        exec i s = .next (s.respond ⟨.rejected, 0, []⟩)) ∧
    (s.bind.pcr = ⟨true, pid⟩ → ∀ i ∈ [Instr.setPidDsmcc pid, .setPidAit pid, .setPidEbu pid],
        exec i s = .next (s.respond ⟨.rejected, 0, []⟩)) ∧
    (s.bind.ebu = ⟨true, pid⟩ → ∀ i ∈ [Instr.setPidDsmcc pid, .setPidAit pid, .setPidPcr pid],
        exec i s = .next (s.respond ⟨.rejected, 0, []⟩))

/-- `GET_ERRORS` and `GET_PACKETS` answer the counters (R148, R149); `DSMCC_DECODE` in `READY` answers the number
of collected sections when complete, else `NOT_FOUND` (R168). None changes anything. The empty bytes of the `OK` are
assumption log 21, a counter of more than 64 bits is assumption log 18. -/
def Obligations.SimpleReads : Prop :=
  (∀ s : State, s.phase ≠ .inBatch →
     exec .getErrors s = .next (s.respond ⟨.ok, BitVec.ofNat 64 s.errors, []⟩) ∧
     exec .getPackets s = .next (s.respond ⟨.ok, BitVec.ofNat 64 s.packets, []⟩)) ∧
  (∀ s : State, s.phase = .ready →
     exec .dsmccDecode s = .next (s.respond
       (if s.dsmcc.state = .complete then ⟨.ok, BitVec.ofNat 64 s.dsmcc.sections.length, []⟩ else ⟨.notFound, 0, []⟩)))

/-- `REGISTER_CB` and `UNREGISTER_CB` set and clear the one bit of their unit (R150, R151; the unused fields of the
`OK` are assumption log 21). -/
def Obligations.SlotCommands : Prop :=
  ∀ (s : State) (u : UnitId), s.phase = .ready →
    (∃ t, exec (.registerCb u) s = .next t ∧ t = { s with cbEn := t.cbEn, out := s.out ++ [.response ⟨.ok, 0, []⟩] } ∧
      t.cbEnabled u = true ∧ ∀ v, v ≠ u → t.cbEnabled v = s.cbEnabled v) ∧
    (∃ t, exec (.unregisterCb u) s = .next t ∧ t = { s with cbEn := t.cbEn, out := s.out ++ [.response ⟨.ok, 0, []⟩] } ∧
      t.cbEnabled u = false ∧ ∀ v, v ≠ u → t.cbEnabled v = s.cbEnabled v)

/-- Outside `READY` every command that could change state is `REFUSED`; in `IN_BATCH` every read is, too, and
every word that is no command; in `READY` such a word is `REJECTED` (R142, R171; what a refused `PROCESS` does with its
bytes is assumption log 19). The status codes are those of R141. -/
def Obligations.PhaseLegality : Prop :=
  (statusCode .ok = 0 ∧ statusCode .notFound = 1 ∧ statusCode .rejected = 2 ∧ statusCode .refused = 3) ∧
  (∀ (s : State) (i : Instr), s.phase ≠ .ready →
    (i = .reset ∨ (∃ p, i = .setPidDsmcc p) ∨ (∃ p, i = .setPidAit p) ∨ (∃ p, i = .setPidPcr p) ∨
      (∃ p, i = .setPidEbu p) ∨ (∃ u, i = .registerCb u) ∨ (∃ u, i = .unregisterCb u) ∨ i = .dsmccDecode ∨
      ∃ b, i = .process b) →
    exec i s = .next (s.respond ⟨.refused, 0, []⟩)) ∧
  (∀ (s : State) (w : BitVec 64) (i : Instr), s.phase = .inBatch → decodeCmd w = .ok i →
    exec i s = .next (s.respond ⟨.refused, 0, []⟩)) ∧
  (∀ (s : State) (w : BitVec 64) (n : Option Nat) (rest : List HostItem) (e : DecodeError),
    s.host = ⟨.cmd w, n⟩ :: rest → decodeCmd w = .error e →
    (s.phase = .ready → step s = .next { s with host := rest, out := s.out ++ [.response ⟨.rejected, 0, []⟩] }) ∧
    (s.phase = .inBatch → n = some 0 →
      step s = .next { s with host := rest, out := s.out ++ [.response ⟨.refused, 0, []⟩] }))

/-- `GET_FIELD` of the PAT: the eight header fields, the entry fields by ordinal, and `NOT_FOUND` past the
list (R152, R154); of a table never decoded, `NOT_FOUND` whatever the selector (R377). The other units are in
`FieldAndListReads`. The empty bytes of an `OK` are assumption log 21. -/
def Obligations.GetFieldPat : Prop :=
  ∀ s : State, s.phase ≠ .inBatch →
    (s.pat.valid = true →
      exec (.getField .pat 0x00#8 0 0) s = .next (s.respond ⟨.ok, s.pat.header.tableId.setWidth 64, []⟩) ∧
      exec (.getField .pat 0x01#8 0 0) s = .next (s.respond ⟨.ok, s.pat.header.sectionSyntaxIndicator.setWidth 64, []⟩) ∧
      exec (.getField .pat 0x02#8 0 0) s = .next (s.respond ⟨.ok, s.pat.header.sectionLength.setWidth 64, []⟩) ∧
      exec (.getField .pat 0x03#8 0 0) s = .next (s.respond ⟨.ok, s.pat.header.tableIdExtension.setWidth 64, []⟩) ∧
      exec (.getField .pat 0x04#8 0 0) s = .next (s.respond ⟨.ok, s.pat.header.versionNumber.setWidth 64, []⟩) ∧
      exec (.getField .pat 0x05#8 0 0) s = .next (s.respond ⟨.ok, s.pat.header.currentNextIndicator.setWidth 64, []⟩) ∧
      exec (.getField .pat 0x06#8 0 0) s = .next (s.respond ⟨.ok, s.pat.header.sectionNumber.setWidth 64, []⟩) ∧
      exec (.getField .pat 0x07#8 0 0) s = .next (s.respond ⟨.ok, s.pat.header.lastSectionNumber.setWidth 64, []⟩) ∧
      (∀ (i : BitVec 16) (e : PatEntry), s.pat.programs[i.toNat]? = some e →
        exec (.getField .pat 0x10#8 i 0) s = .next (s.respond ⟨.ok, e.programNumber.setWidth 64, []⟩) ∧
        exec (.getField .pat 0x11#8 i 0) s = .next (s.respond ⟨.ok, e.pid.setWidth 64, []⟩)) ∧
      (∀ i : BitVec 16, s.pat.programs.length ≤ i.toNat →
        exec (.getField .pat 0x10#8 i 0) s = .next (s.respond ⟨.notFound, 0, []⟩) ∧
        exec (.getField .pat 0x11#8 i 0) s = .next (s.respond ⟨.notFound, 0, []⟩))) ∧
    (∀ (u : UnitId) (sel : Byte), s.tableValid u = false →
      exec (.getField u sel 0 0) s = .next (s.respond ⟨.notFound, 0, []⟩))

/-- `GET_FIELD` of every other unit: the scalars and the per-entry fields of the selector tables R155 to R161, an entry
past the end and a selector the TDT lacks being `NOT_FOUND`; a PCR never received is `NOT_FOUND`, not 0. The EBU pages
are the keys of the map in ascending order of (magazine, page, subpage) (R161; 45_packet_decoders.md R358), each with
its lines. `GET_LIST_LEN` answers the length of every list, also when it is 0, and `NOT_FOUND` for a table never
decoded, for what is no list, and for the lines of a page past the end (R153). The field of an `OK` that is not
returned is assumption log 21. -/
def Obligations.FieldAndListReads : Prop :=
  ∀ s : State, s.phase ≠ .inBatch →
    (s.pmt.valid = true →
      scalarsRead s .pmt (headerScalars s.pmt.header ++
        [(0x08#8, s.pmt.pcrPid.setWidth 64), (0x09#8, s.pmt.programInfoLength.setWidth 64)]) ∧
      entriesRead s .pmt s.pmt.streams
        [(0x10#8, fun e => e.streamType.setWidth 64), (0x11#8, fun e => e.elementaryPid.setWidth 64),
         (0x12#8, fun e => e.esInfoLength.setWidth 64)] ∧
      lengthRead s .pmt s.pmt.streams.length) ∧
    (s.nit.valid = true →
      scalarsRead s .nit (headerScalars s.nit.header ++
        [(0x08#8, s.nit.networkDescriptorsLength.setWidth 64), (0x09#8, s.nit.streamLoopLength.setWidth 64)]) ∧
      entriesRead s .nit s.nit.streams
        [(0x10#8, fun e => e.transportStreamId.setWidth 64), (0x11#8, fun e => e.originalNetworkId.setWidth 64),
         (0x12#8, fun e => e.descriptorsLength.setWidth 64)] ∧
      lengthRead s .nit s.nit.streams.length) ∧
    (s.sdt.valid = true →
      scalarsRead s .sdt (headerScalars s.sdt.header ++ [(0x08#8, s.sdt.originalNetworkId.setWidth 64)]) ∧
      entriesRead s .sdt s.sdt.services
        [(0x10#8, fun e => e.serviceId.setWidth 64), (0x11#8, fun e => e.eitSchedule.setWidth 64),
         (0x12#8, fun e => e.eitPresentFollowing.setWidth 64), (0x13#8, fun e => e.runningStatus.setWidth 64),
         (0x14#8, fun e => e.freeCaMode.setWidth 64), (0x15#8, fun e => e.loopLength.setWidth 64)] ∧
      lengthRead s .sdt s.sdt.services.length) ∧
    (s.eit.valid = true →
      scalarsRead s .eit (headerScalars s.eit.header ++
        [(0x08#8, s.eit.transportStreamId.setWidth 64), (0x09#8, s.eit.originalNetworkId.setWidth 64),
         (0x0A#8, s.eit.segmentLastSectionNumber.setWidth 64), (0x0B#8, s.eit.lastTableId.setWidth 64)]) ∧
      entriesRead s .eit s.eit.events
        [(0x10#8, fun e => e.eventId.setWidth 64), (0x11#8, fun e => e.startTime.setWidth 64),
         (0x12#8, fun e => e.duration.setWidth 64), (0x13#8, fun e => e.runningStatus.setWidth 64),
         (0x14#8, fun e => e.freeCaMode.setWidth 64), (0x15#8, fun e => e.loopLength.setWidth 64)] ∧
      lengthRead s .eit s.eit.events.length) ∧
    (s.tdt.valid = true →
      scalarsRead s .tdt
        [(0x00#8, s.tdt.tableId.setWidth 64), (0x01#8, s.tdt.sectionSyntaxIndicator.setWidth 64),
         (0x02#8, s.tdt.sectionLength.setWidth 64), (0x08#8, s.tdt.utcTime.setWidth 64)] ∧
      ∀ sel ∈ [0x03#8, 0x04#8, 0x05#8, 0x06#8, 0x07#8],
        exec (.getField .tdt sel 0 0) s = .next (s.respond ⟨.notFound, 0, []⟩)) ∧
    (s.ait.valid = true →
      scalarsRead s .ait
        ((headerScalars s.ait.header).set 3 (0x03#8, (s.ait.header.tableIdExtension.extractLsb' 0 15).setWidth 64) ++
          [(0x08#8, (s.ait.header.tableIdExtension.extractLsb' 15 1).setWidth 64),
           (0x09#8, s.ait.commonDescriptorsLength.setWidth 64), (0x0A#8, s.ait.applicationLoopLength.setWidth 64)]) ∧
      entriesRead s .ait s.ait.applications
        [(0x10#8, fun e => e.organisationId.setWidth 64), (0x11#8, fun e => e.applicationId.setWidth 64),
         (0x12#8, fun e => e.controlCode.setWidth 64), (0x13#8, fun e => e.loopLength.setWidth 64)] ∧
      lengthRead s .ait s.ait.applications.length) ∧
    (s.pat.valid = true → lengthRead s .pat s.pat.programs.length) ∧
    -- unit 7
    (scalarsRead s .dsmcc [(0x08#8, if s.dsmcc.state = .complete then 1 else 0)] ∧
      entriesRead s .dsmcc s.dsmcc.sections
        [(0x10#8, fun e => e.tableId.setWidth 64), (0x11#8, fun e => e.tableIdExtension.setWidth 64),
         (0x12#8, fun e => e.versionNumber.setWidth 64), (0x13#8, fun e => e.sectionNumber.setWidth 64),
         (0x14#8, fun e => e.lastSectionNumber.setWidth 64)] ∧
      (∀ i : BitVec 16, exec (.getField .dsmcc 0x15#8 i 0) s = .next (s.respond
        (match s.dsmcc.sections[i.toNat]? with
         | some e => ⟨.ok, 0, e.bytes⟩
         | none => ⟨.notFound, 0, []⟩))) ∧
      lengthRead s .dsmcc s.dsmcc.sections.length) ∧
    -- unit 8
    exec (.getField .pcr 0x08#8 0 0) s =
      .next (s.respond (if s.pcr.valid then ⟨.ok, s.pcr.value.setWidth 64, []⟩ else ⟨.notFound, 0, []⟩)) ∧
    -- unit 9
    (lengthRead s .ebu s.ebu.length ∧
      (∀ (i : BitVec 16) (k : EbuKey) (pg : EbuPage), s.ebu[i.toNat]? = some (keyIndex k, pg) →
        exec (.getField .ebu 0x10#8 i 0) s = .next (s.respond ⟨.ok, k.magazine.setWidth 64, []⟩) ∧
        exec (.getField .ebu 0x11#8 i 0) s = .next (s.respond ⟨.ok, k.page.setWidth 64, []⟩) ∧
        exec (.getField .ebu 0x12#8 i 0) s = .next (s.respond ⟨.ok, k.subpage.setWidth 64, []⟩) ∧
        exec (.getField .ebu 0x13#8 i 0) s = .next (s.respond ⟨.ok, if pg.isOpen then 1 else 0, []⟩) ∧
        exec (.getListLen .ebu 0x14#8 i) s = .next (s.respond ⟨.ok, BitVec.ofNat 64 pg.lines.length, []⟩) ∧
        ∀ j : BitVec 12,
          exec (.getField .ebu 0x14#8 i j) s = .next (s.respond
            (match pg.lines[j.toNat]? with
             | some ln => ⟨.ok, ln.row.setWidth 64, []⟩
             | none => ⟨.notFound, 0, []⟩)) ∧
          exec (.getField .ebu 0x15#8 i j) s = .next (s.respond
            (match pg.lines[j.toNat]? with
             | some ln => ⟨.ok, 0, ln.data⟩
             | none => ⟨.notFound, 0, []⟩))) ∧
      (∀ i : BitVec 16, s.ebu.length ≤ i.toNat →
        (∀ sel ∈ [0x10#8, 0x11#8, 0x12#8, 0x13#8],
          exec (.getField .ebu sel i 0) s = .next (s.respond ⟨.notFound, 0, []⟩)) ∧
        exec (.getListLen .ebu 0x14#8 i) s = .next (s.respond ⟨.notFound, 0, []⟩) ∧
        ∀ j, exec (.getField .ebu 0x14#8 i j) s = .next (s.respond ⟨.notFound, 0, []⟩) ∧
          exec (.getField .ebu 0x15#8 i j) s = .next (s.respond ⟨.notFound, 0, []⟩)) ∧
      (Memory.wf s = true →
        (∀ (k : EbuKey) (pg : EbuPage), (keyIndex k, pg) ∈ s.ebu ↔ pg = s.pageOf k ∧ pg ≠ ⟨false, []⟩) ∧
        (∀ e ∈ s.ebu, ∃ k, e.1 = keyIndex k) ∧
        ∀ (i j : Nat) (k m : EbuKey) (p q : EbuPage), s.ebu[i]? = some (keyIndex k, p) → s.ebu[j]? = some (keyIndex m, q) →
          i < j → k.magazine < m.magazine ∨ (k.magazine = m.magazine ∧
            (k.page < m.page ∨ (k.page = m.page ∧ k.subpage < m.subpage))))) ∧
    -- what is no list, and the lists of a table never decoded
    (∀ (u : UnitId) (sel : Byte), (sel ≠ 0x10#8 ∨ u = .tdt ∨ u = .pcr) → ¬(u = .ebu ∧ sel = 0x14#8) →
      exec (.getListLen u sel 0) s = .next (s.respond ⟨.notFound, 0, []⟩)) ∧
    (∀ u : UnitId, s.tableValid u = false → exec (.getListLen u 0x10#8 0) s = .next (s.respond ⟨.notFound, 0, []⟩))

/-- The list paths: which unit and selector name which descriptor list, a table never decoded and every other path
naming none (R155 to R160). The descriptor commands on a path that resolves to `l`: its length (R162); the number of
descriptors of a tag (R163); the descriptor at an ordinal as `kind * 2^16 + tag * 2^8 + length` (R164); the ordinal of
the n-th descriptor of a tag (R165); a field of a descriptor (R166). Past the end, and on a path that names no list,
`NOT_FOUND` (R377). A non-zero `idx1` with `sel = 0x20` is assumption log 9, the empty bytes of an `OK` assumption
log 21. -/
def Obligations.DescriptorReads : Prop :=
  (∀ (s : State) (i : Nat),
    (s.pmt.valid = true → resolve s .pmt 0x20#8 i = some s.pmt.programInfo ∧
      resolve s .pmt 0x21#8 i = s.pmt.streams[i]?.map fun e => e.descriptors) ∧
    (s.nit.valid = true → resolve s .nit 0x20#8 i = some s.nit.networkDescriptors ∧
      resolve s .nit 0x21#8 i = s.nit.streams[i]?.map fun e => e.descriptors) ∧
    (s.sdt.valid = true → resolve s .sdt 0x21#8 i = s.sdt.services[i]?.map fun e => e.descriptors) ∧
    (s.eit.valid = true → resolve s .eit 0x21#8 i = s.eit.events[i]?.map fun e => e.descriptors) ∧
    (s.ait.valid = true → resolve s .ait 0x20#8 i = some s.ait.commonDescriptors ∧
      resolve s .ait 0x21#8 i = s.ait.applications[i]?.map fun e => e.descriptors) ∧
    (∀ (u : UnitId) (sel : Byte), s.tableValid u = false → resolve s u sel i = none) ∧
    ∀ (u : UnitId) (sel : Byte), (u, sel) ∉ [(.pmt, 0x20#8), (.pmt, 0x21#8), (.nit, 0x20#8), (.nit, 0x21#8), (.sdt, 0x21#8),
      (.eit, 0x21#8), (.ait, 0x20#8), (.ait, 0x21#8)] → resolve s u sel i = none) ∧
  (∀ (s : State) (u : UnitId) (sel : Byte) (i : BitVec 16), s.phase ≠ .inBatch → (sel = 0x20#8 → i = 0) →
    resolve s u sel i.toNat = none →
    exec (.getDescListLenAll u sel i) s = .next (s.respond ⟨.notFound, 0, []⟩) ∧
    (∀ tag, exec (.getDescListLenForTag u sel i tag) s = .next (s.respond ⟨.notFound, 0, []⟩)) ∧
    ∀ k, exec (.getDescByIndex u sel i k) s = .next (s.respond ⟨.notFound, 0, []⟩) ∧
      (∀ tag, exec (.getDescByTag u sel i k tag) s = .next (s.respond ⟨.notFound, 0, []⟩)) ∧
      ∀ e fid, exec (.getDescField u sel i k e fid) s = .next (s.respond ⟨.notFound, 0, []⟩)) ∧
  ∀ (s : State) (u : UnitId) (sel : Byte) (i : BitVec 16) (l : List Descriptor), s.phase ≠ .inBatch →
    (sel = 0x20#8 → i = 0) → resolve s u sel i.toNat = some l →
    exec (.getDescListLenAll u sel i) s = .next (s.respond ⟨.ok, BitVec.ofNat 64 l.length, []⟩) ∧
    (∀ tag, exec (.getDescListLenForTag u sel i tag) s =
      .next (s.respond ⟨.ok, BitVec.ofNat 64 (l.filter (·.tag == tag)).length, []⟩)) ∧
    (∀ (k : BitVec 12) (d : Descriptor), l[k.toNat]? = some d →
      exec (.getDescByIndex u sel i k) s = .next (s.respond ⟨.ok,
        BitVec.ofNat 64 ((kindNumber (kindOfInfo d.info)).toNat * 2 ^ 16 + d.tag.toNat * 2 ^ 8 + d.length.toNat), []⟩) ∧
      (∀ fid e, exec (.getDescField u sel i k e fid) s = .next (s.respond (found (descField d fid e.toNat))))) ∧
    (∀ k : BitVec 12, l.length ≤ k.toNat →
      exec (.getDescByIndex u sel i k) s = .next (s.respond ⟨.notFound, 0, []⟩) ∧
      (∀ fid e, exec (.getDescField u sel i k e fid) s = .next (s.respond ⟨.notFound, 0, []⟩))) ∧
    (∀ (n : BitVec 12) (tag : Byte) (j : Nat) (d : Descriptor), l[j]? = some d → d.tag = tag →
      ((l.take j).filter (·.tag == tag)).length = n.toNat →
      exec (.getDescByTag u sel i n tag) s = .next (s.respond ⟨.ok, BitVec.ofNat 64 j, []⟩)) ∧
    (∀ (n : BitVec 12) (tag : Byte), (l.filter (·.tag == tag)).length ≤ n.toNat →
      exec (.getDescByTag u sel i n tag) s = .next (s.respond ⟨.notFound, 0, []⟩))

/-- `DSMCC_IS_COMPLETE` reads the collector's state, and once it is `COMPLETE` it stays so until the next
`RESET` or power-on (43_table_decoders.md R265). -/
def Obligations.DsmccStaysComplete : Prop :=
  (∀ s : State, s.phase ≠ .inBatch →
    exec .dsmccIsComplete s = .next (s.respond ⟨.ok, if s.dsmcc.state = .complete then 1 else 0, []⟩)) ∧
  (∀ s t : State, s.dsmcc.state = .complete → step s = .next t →
    t.dsmcc.state = .complete ∨
      ∃ a u, s.takeAction = some (a, u) ∧ (a = .powerOn ∨ ∃ w, a = .cmd w ∧ decodeCmd w = .ok .reset))

/-- `PROCESS` in `READY` starts a batch on the bytes given, after `carry` when `XBUF` is true, at cursor 0 with
no error yet (41_packet_deframe_route.md R180, R181). -/
def Obligations.ProcessStarts : Prop :=
  ∀ (s : State) (bytes : Bytes), s.phase = .ready →
    exec (.process bytes) s = .next
      { s with phase := .inBatch, batchErr := false, stream := (if s.cfg.xbuf then s.carry else []) ++ bytes,
               carry := [], pc := 0, work := [] }

/-! ## Packets (41_packet_deframe_route.md) -/

/-- What the latch holds of a packet `P`, and where its payload is: the header bits, the adaptation field
when `afc[1] = 1`, an overrunning one leaving no payload (R182, R183). -/
def Obligations.LatchAndPayload : Prop :=
  ∀ (sync : Byte) (afc : BitVec 2) (h : PktHead) (rest P : Bytes), rest.length = 184 →
    P = packetBytes sync afc h rest →
    (latch afc h rest).pid = (u16 P 1).extractLsb' 0 13 ∧ (latch afc h rest).pusi = (byteAt P 1).getLsbD 6 ∧
    (latch afc h rest).tei = (byteAt P 1).getLsbD 7 ∧ (latch afc h rest).prio = (byteAt P 1).getLsbD 5 ∧
    (latch afc h rest).tsc = (byteAt P 3).extractLsb' 6 2 ∧ (latch afc h rest).afc = (byteAt P 3).extractLsb' 4 2 ∧
    (latch afc h rest).cc = (byteAt P 3).extractLsb' 0 4 ∧
    (afc.getLsbD 1 = false → (latch afc h rest).afl = 0 ∧ (latch afc h rest).afOk = true ∧
      (latch afc h rest).afFlags = 0 ∧ (latch afc h rest).plOff = 4) ∧
    (afc.getLsbD 1 = true → (latch afc h rest).afl = byteAt P 4 ∧
      ((latch afc h rest).afOk = true ↔ 5 + (byteAt P 4).toNat ≤ 188) ∧
      (latch afc h rest).plOff.toNat = (if 5 + (byteAt P 4).toNat ≤ 188 then 5 + (byteAt P 4).toNat else 188) ∧
      (latch afc h rest).afFlags =
        (if 5 + (byteAt P 4).toNat ≤ 188 ∧ 1 ≤ (byteAt P 4).toNat then byteAt P 5 else 0)) ∧
    payloadOf (latch afc h rest) rest = (if afc.getLsbD 0 then P.drop (latch afc h rest).plOff.toNat else [])

/-- `TSPKT.RSV` is counted and then discarded before any role is tested (R188). `TSPKT.PL`, `TSPKT.AF` and
`TSPKT.AFPL` count the packet, latch its header and route it by PID, in this order: the PCR decoder; the EBU
decoder; the reassembler, when a section is in flight or the PID has a table role and the packet has a payload;
else discarded (R184 to R187, R189, R190). -/
def Obligations.PacketRouting : Prop :=
  (∀ (s : State) (h : PktHead) (rest : Bytes),
     exec (.tspktRsv h rest) s = .next { s with packets := satInc s.cfg s.packets, hdr := latch 0#2 h rest }) ∧
  (∀ (s : State) (h : PktHead) (rest : Bytes) (i : Instr) (afc : BitVec 2),
     (i = .tspktPl h rest ∧ afc = 1#2) ∨ (i = .tspktAf h rest ∧ afc = 2#2) ∨ (i = .tspktAfpl h rest ∧ afc = 3#2) →
     ∃ w, exec i s = .next { s with packets := satInc s.cfg s.packets, hdr := latch afc h rest, work := w ++ s.work } ∧
       ((s.bind.pcr.valid = true ∧ s.bind.pcr.pid = h.pid ∧ w = [.unit (.pcrPacket (packetBytes s.cfg.syncByte afc h rest))]) ∨
        (¬(s.bind.pcr.valid = true ∧ s.bind.pcr.pid = h.pid) ∧ s.bind.ebu.valid = true ∧ s.bind.ebu.pid = h.pid ∧
         w = (ebuUnits s.cfg (payloadOf (latch afc h rest) rest) h.pusi).map fun e => .unit (.event e)) ∨
        (¬(s.bind.pcr.valid = true ∧ s.bind.pcr.pid = h.pid) ∧ ¬(s.bind.ebu.valid = true ∧ s.bind.ebu.pid = h.pid) ∧
         ((s.ctxOf h.pid).state = .accumulating ∨ isTablePid s h.pid = true) ∧
         w = if afc = 2#2 then [] else [.unit (.payloadPacket h.pid (payloadOf (latch afc h rest) rest))]) ∨
        (¬(s.bind.pcr.valid = true ∧ s.bind.pcr.pid = h.pid) ∧ ¬(s.bind.ebu.valid = true ∧ s.bind.ebu.pid = h.pid) ∧
         (s.ctxOf h.pid).state = .idle ∧ isTablePid s h.pid = false ∧ w = [])))

/-- `IsTablePid(p)`: a fixed table PID, the bound AIT or DSMCC PID, or a PMT PID of the committed PAT, whose
entry's `program_number` is not 0; `Roles(p)` is every role whose PID test holds (R187). -/
def Obligations.TablePids : Prop :=
  ∀ (s : State) (p : Pid),
    (isTablePid s p = true ↔
      p ∈ [s.cfg.pidPat, s.cfg.pidNit, s.cfg.pidSdt, s.cfg.pidEit, s.cfg.pidTdt] ∨
      (s.bind.ait.valid = true ∧ s.bind.ait.pid = p) ∨ (s.bind.dsmcc.valid = true ∧ s.bind.dsmcc.pid = p) ∨
      (s.pat.valid = true ∧ ∃ e ∈ s.pat.programs, e.programNumber ≠ 0 ∧ e.pid = p)) ∧
    (.pat ∈ roles s p ↔ p = s.cfg.pidPat) ∧ (.nit ∈ roles s p ↔ p = s.cfg.pidNit) ∧
    (.sdt ∈ roles s p ↔ p = s.cfg.pidSdt) ∧ (.eit ∈ roles s p ↔ p = s.cfg.pidEit) ∧
    (.tdt ∈ roles s p ↔ p = s.cfg.pidTdt) ∧
    (.pmt ∈ roles s p ↔ s.pat.valid = true ∧ ∃ e ∈ s.pat.programs, e.programNumber ≠ 0 ∧ e.pid = p) ∧
    (.ait ∈ roles s p ↔ s.bind.ait.valid = true ∧ s.bind.ait.pid = p) ∧
    (.dsmcc ∈ roles s p ↔ s.bind.dsmcc.valid = true ∧ s.bind.dsmcc.pid = p)

/-! ## The reassembler (42_section_reassembly_crc.md) -/

/-- `SEC.CC`: a duplicate is dropped without a change; a jump is one `CONTINUITY` error that abandons the
section in flight; the counter is then tracked and the payload step follows (R211). -/
def Obligations.ContinuityCheck : Prop :=
  ∀ (s : State) (pid : Pid) (b : Bytes), Memory.wf s = true →
    ((s.ctxOf pid).ccValid = true → s.hdr.cc = (s.ctxOf pid).lastCc → exec (.secCc pid b) s = .next s) ∧
    (((s.ctxOf pid).ccValid = false ∨ s.hdr.cc.toNat = ((s.ctxOf pid).lastCc.toNat + 1) % 16) →
      ∃ t, exec (.secCc pid b) s = .next t ∧
        t = { s with ctx := t.ctx, work := .unit (.payload s.hdr.pusi pid b) :: s.work } ∧
        t.ctxOf pid = { s.ctxOf pid with ccValid := true, lastCc := s.hdr.cc } ∧
        ∀ q, q ≠ pid → t.ctxOf q = s.ctxOf q) ∧
    ((s.ctxOf pid).ccValid = true → s.hdr.cc ≠ (s.ctxOf pid).lastCc →
      s.hdr.cc.toNat ≠ ((s.ctxOf pid).lastCc.toNat + 1) % 16 →
      ∃ t, exec (.secCc pid b) s = .next t ∧
        t = { s with ctx := t.ctx, work := .unit (.payload s.hdr.pusi pid b) :: s.work,
                     errors := satInc s.cfg s.errors, batchErr := true, out := s.out ++ [.error .continuity] } ∧
        t.ctxOf pid = ⟨.idle, [], true, s.hdr.cc⟩ ∧ ∀ q, q ≠ pid → t.ctxOf q = s.ctxOf q)

/-- `SEC.START`: the section in flight takes its tail, up to the pointer position, and is drained before the
new section starts there; without a section in flight the new one starts at once; nothing after the pointer
position leaves the context `IDLE`; without a pointer byte nothing happens (R212, R219). -/
def Obligations.PayloadStart : Prop :=
  ∀ (s : State) (pid : Pid) (ptr : Byte) (rest : Bytes), Memory.wf s = true →
    exec (.secStart pid []) s = .next s ∧
    ((s.ctxOf pid).state = .accumulating →
      ∃ t, exec (.secStart pid (ptr :: rest)) s = .next t ∧
        t = { s with ctx := t.ctx, work := [.unit (.drain pid), .restart pid (rest.drop ptr.toNat)] ++ s.work } ∧
        t.ctxOf pid = { s.ctxOf pid with buf := (s.ctxOf pid).buf ++ rest.take ptr.toNat } ∧
        ∀ q, q ≠ pid → t.ctxOf q = s.ctxOf q) ∧
    ((s.ctxOf pid).state = .idle → ptr.toNat < rest.length →
      ∃ t, exec (.secStart pid (ptr :: rest)) s = .next t ∧
        t = { s with ctx := t.ctx, work := .unit (.drain pid) :: s.work } ∧
        t.ctxOf pid = { s.ctxOf pid with state := .accumulating, buf := rest.drop ptr.toNat } ∧
        ∀ q, q ≠ pid → t.ctxOf q = s.ctxOf q) ∧
    ((s.ctxOf pid).state = .idle → rest.length ≤ ptr.toNat →
      ∃ t, exec (.secStart pid (ptr :: rest)) s = .next t ∧ t = { s with ctx := t.ctx } ∧
        t.ctxOf pid = { s.ctxOf pid with state := .idle, buf := [] } ∧ ∀ q, q ≠ pid → t.ctxOf q = s.ctxOf q)

/-- `SEC.APPEND`: appended to the section in flight, which is then drained; with none, discarded (R212). -/
def Obligations.PayloadAppend : Prop :=
  ∀ (s : State) (pid : Pid) (b : Bytes), Memory.wf s = true →
    ((s.ctxOf pid).state = .idle → exec (.secAppend pid b) s = .next s) ∧
    ((s.ctxOf pid).state = .accumulating →
      ∃ t, exec (.secAppend pid b) s = .next t ∧ t = { s with ctx := t.ctx, work := .unit (.drain pid) :: s.work } ∧
        (∀ k, readByte t (.secbuf pid k) = ((s.ctxOf pid).buf ++ b)[k]?) ∧
        t.ctxOf pid = { s.ctxOf pid with buf := (s.ctxOf pid).buf ++ b } ∧
        ∀ q, q ≠ pid → t.ctxOf q = s.ctxOf q)

/-- `SEC.DRAIN`, one turn: an empty buffer leaves the context `IDLE`; padding is handed to `SEC.STUFF`; an
incomplete section waits; a complete one, of `3 + section_length` bytes, is taken off the front and handled
before the next turn (R213, R214, R217). -/
def Obligations.DrainTurn : Prop :=
  ∀ (s : State) (pid : Pid) (b : Bytes), Memory.wf s = true → (s.ctxOf pid).buf = b →
    (b = [] → ∃ t, exec (.secDrain pid) s = .next t ∧ t = { s with ctx := t.ctx } ∧
      t.ctxOf pid = { s.ctxOf pid with state := .idle } ∧ ∀ q, q ≠ pid → t.ctxOf q = s.ctxOf q) ∧
    (b ≠ [] → byteAt b 0 = 0xFF#8 →
      exec (.secDrain pid) s = .next { s with work := .unit (.table pid [] b) :: s.work }) ∧
    (b ≠ [] → byteAt b 0 ≠ 0xFF#8 → (b.length < 3 ∨ b.length < 3 + ((u16 b 1).extractLsb' 0 12).toNat) →
      exec (.secDrain pid) s = .next s) ∧
    (∀ sec r, b = sec ++ r → 3 ≤ sec.length → sec.length = 3 + ((u16 sec 1).extractLsb' 0 12).toNat →
      byteAt sec 0 ≠ 0xFF#8 →
      ∃ t, exec (.secDrain pid) s = .next t ∧
        t = { s with ctx := t.ctx, work := [.unit (.extracted pid sec), .unit (.drain pid)] ++ s.work } ∧
        t.ctxOf pid = { s.ctxOf pid with buf := r } ∧ ∀ q, q ≠ pid → t.ctxOf q = s.ctxOf q)

/-- `SEC.STUFF` drops the rest of the buffer and leaves the context `IDLE`; `SEC.ST` and `SEC.OTHER` drop a
section: no error, no notification, no other change (R220, R221). -/
def Obligations.DroppedSections : Prop :=
  ∀ (s : State) (pid : Pid) (sec : Bytes),
    (Memory.wf s = true → ∃ t, exec (.secStuff pid) s = .next t ∧ t = { s with ctx := t.ctx } ∧
      t.ctxOf pid = { s.ctxOf pid with state := .idle, buf := [] } ∧ ∀ q, q ≠ pid → t.ctxOf q = s.ctxOf q) ∧
    exec (.secSt sec) s = .next s ∧ exec (.secOther sec) s = .next s

/-- `SEC.CRC`: a section that is not stuffing goes to dispatch when its last 4 bytes are the CRC-32 of the
others or its `table_id` is exempt; a mismatch or a section shorter than 7 bytes is one `INTEGRITY` error
and nothing else (R216). It holds for every configuration; what the CRC is with `CRC_REFLECT = yes` is assumption
log 15. -/
def Obligations.CrcCheck : Prop :=
  ∀ (s : State) (pid : Pid) (sec : Bytes), byteAt sec 0 ∉ s.cfg.stuffingIds →
    (byteAt sec 0 ∈ s.cfg.crcExempt →
      exec (.secCrc pid sec) s = .next { s with work := .unit (.validated pid sec) :: s.work }) ∧
    (∀ body, sec = body ++ be32 (crc32 s.cfg body) → 3 ≤ body.length →
      exec (.secCrc pid sec) s = .next { s with work := .unit (.validated pid sec) :: s.work }) ∧
    (byteAt sec 0 ∉ s.cfg.crcExempt →
      (sec.length < 7 ∨ crc32 s.cfg (sec.take (sec.length - 4)) ≠ u32 sec (sec.length - 4)) →
      exec (.secCrc pid sec) s = .next { s with errors := satInc s.cfg s.errors, batchErr := true,
                                                out := s.out ++ [.error .integrity] })

/-- A CRC-32 whose polynomial is odd (its lowest coefficient is 1, as that of the default is) detects every change of
one byte (R216, which derives it from R215). What the CRC is with `CRC_REFLECT = yes` is assumption log 15. -/
def Obligations.CrcDetectsOneByte : Prop :=
  ∀ (cfg : Config) (a c : Bytes) (x y : Byte), cfg.crcPoly.getLsbD 0 = true → x ≠ y →
    crc32 cfg (a ++ [x] ++ c) ≠ crc32 cfg (a ++ [y] ++ c)

/-- The CRC of R215: it is `0xFFFFFFFF` for no bytes, each byte is XORed into the top byte and shifted out bit by bit
with the polynomial `0x04C11DB7`; the check values; the CRC of a byte sequence followed by its own CRC is 0. -/
def Obligations.CrcOfCodeword : Prop :=
  crc32 {} [] = 0xFFFFFFFF#32 ∧
  (∀ (s : Bytes) (b : Byte), crc32 {} (s ++ [b]) =
    (fun c : BitVec 32 => if c.getLsbD 31 then (c <<< 1) ^^^ 0x04C11DB7#32 else c <<< 1)^[8]
      (crc32 {} s ^^^ (b.setWidth 32 <<< 24))) ∧
  (∀ s : Bytes, crc32 {} (s ++ be32 (crc32 {} s)) = 0#32) ∧
  crc32 {} [0x00#8] = 0x4E08BFB4#32 ∧ crc32 {} [0xFF#8] = 0xFFFFFF00#32 ∧
  crc32 {} [0x31#8, 0x32#8, 0x33#8, 0x34#8, 0x35#8, 0x36#8, 0x37#8, 0x38#8, 0x39#8] = 0x0376E6E7#32

/-- `SEC.DISPATCH` hands the section to the decoder of a role the PID has now that accepts its `table_id`, and
drops it when there is none (R221). The roles of a PID and the accepted `table_id`s are those of 30_encoding.md R113:
the ids of the parameter's map, which by default are `0x00`, `0x02`, `0x40` and `0x41`, `0x42` and `0x46`, `0x4E` to
`0x6F`, `0x70`, `0x74`, and `DSMCC_TABLE_IDS`. Which of two accepting roles decodes is left open (assumption log 16);
that the map is a parameter of this shape is assumption log 17. -/
def Obligations.DispatchByRole : Prop :=
  (∀ (s : State) (pid : Pid) (sec : Bytes), byteAt sec 0 ≠ 0xFF#8 → byteAt sec 0 ∉ s.cfg.stuffingIds → sec ≠ [] →
    exec (.secDispatch pid sec) s = .next { s with work := .unit (.table pid (roles s pid) sec) :: s.work } ∧
    ((∃ r, hasRole s pid r = true ∧ accepted s.cfg r (byteAt sec 0) = true) →
      ∃ r, hasRole s pid r = true ∧ accepted s.cfg r (byteAt sec 0) = true ∧
        decode s.cfg (.table pid (roles s pid) sec) = .ok (tableInstr r sec)) ∧
    ((∀ r, hasRole s pid r = true → accepted s.cfg r (byteAt sec 0) = false) →
      decode s.cfg (.table pid (roles s pid) sec) = .ok (.secOther sec))) ∧
  (∀ (s : State) (p : Pid),
    (hasRole s p .pat = true ↔ p = s.cfg.pidPat) ∧ (hasRole s p .nit = true ↔ p = s.cfg.pidNit) ∧
    (hasRole s p .sdt = true ↔ p = s.cfg.pidSdt) ∧ (hasRole s p .eit = true ↔ p = s.cfg.pidEit) ∧
    (hasRole s p .tdt = true ↔ p = s.cfg.pidTdt) ∧
    (hasRole s p .pmt = true ↔ s.pat.valid = true ∧ ∃ e ∈ s.pat.programs, e.programNumber ≠ 0 ∧ e.pid = p) ∧
    (hasRole s p .ait = true ↔ s.bind.ait.valid = true ∧ s.bind.ait.pid = p) ∧
    (hasRole s p .dsmcc = true ↔ s.bind.dsmcc.valid = true ∧ s.bind.dsmcc.pid = p)) ∧
  (∀ (cfg : Config) (t : Byte),
    (accepted cfg .pat t = true ↔ t ∈ cfg.tableIds.pat) ∧ (accepted cfg .pmt t = true ↔ t ∈ cfg.tableIds.pmt) ∧
    (accepted cfg .nit t = true ↔ t ∈ cfg.tableIds.nit) ∧ (accepted cfg .sdt t = true ↔ t ∈ cfg.tableIds.sdt) ∧
    (accepted cfg .eit t = true ↔ t ∈ cfg.tableIds.eit) ∧ (accepted cfg .tdt t = true ↔ t ∈ cfg.tableIds.tdt) ∧
    (accepted cfg .ait t = true ↔ t ∈ cfg.tableIds.ait) ∧ (accepted cfg .dsmcc t = true ↔ t ∈ cfg.dsmccIds)) ∧
  ∀ t : Byte,
    (accepted {} .pat t = true ↔ t = 0x00#8) ∧ (accepted {} .pmt t = true ↔ t = 0x02#8) ∧
    (accepted {} .nit t = true ↔ t = 0x40#8 ∨ t = 0x41#8) ∧ (accepted {} .sdt t = true ↔ t = 0x42#8 ∨ t = 0x46#8) ∧
    (accepted {} .eit t = true ↔ 0x4E ≤ t.toNat ∧ t.toNat ≤ 0x6F) ∧ (accepted {} .tdt t = true ↔ t = 0x70#8) ∧
    (accepted {} .ait t = true ↔ t = 0x74#8) ∧ (accepted {} .dsmcc t = true ↔ t = 0x3B#8 ∨ t = 0x3C#8)

/-! ## Tables (43_table_decoders.md) -/

/-- A loop of entries of a table: one turn when the fixed part still fits, none otherwise; the bound on the
number of turns never cuts it short (R253). -/
def Obligations.EntryLoop : Prop :=
  ∀ {α : Type} (k e : Nat) (f : Nat → α) (size : Nat → Nat) (n o : Nat), 1 ≤ k → (∀ p, 1 ≤ size p) → e ≤ n + o →
    entries k e f size n o = if o + k ≤ e then f o :: entries k e f size n (o + size o) else []

/-- A section shorter than its decoder's minimum is dropped (R251); a PAT, PMT, NIT or SDT section whose version
and section number are those of the record last committed is a no-op (R252): nothing at all changes. -/
def Obligations.IgnoredSections : Prop :=
  (∀ (s : State) (sec : Bytes),
     (sectionEnd s.cfg sec < 8 → exec (.secPat sec) s = .next s ∧ exec (.secTdt sec) s = .next s ∧
       exec (.secDsmcc sec) s = .next s) ∧
     (sectionEnd s.cfg sec < 12 → exec (.secPmt sec) s = .next s) ∧
     (sectionEnd s.cfg sec < 10 → exec (.secNit sec) s = .next s ∧ exec (.secAit sec) s = .next s) ∧
     (sectionEnd s.cfg sec < 11 → exec (.secSdt sec) s = .next s) ∧
     (sectionEnd s.cfg sec < 14 → exec (.secEit sec) s = .next s)) ∧
  (∀ (s : State) (sec : Bytes),
     (s.pat.valid = true → (byteAt sec 5).extractLsb' 1 5 = s.pat.header.versionNumber →
       byteAt sec 6 = s.pat.header.sectionNumber → exec (.secPat sec) s = .next s) ∧
     (s.pmt.valid = true → (byteAt sec 5).extractLsb' 1 5 = s.pmt.header.versionNumber →
       byteAt sec 6 = s.pmt.header.sectionNumber → exec (.secPmt sec) s = .next s) ∧
     (s.nit.valid = true → (byteAt sec 5).extractLsb' 1 5 = s.nit.header.versionNumber →
       byteAt sec 6 = s.nit.header.sectionNumber → exec (.secNit sec) s = .next s) ∧
     (s.sdt.valid = true → (byteAt sec 5).extractLsb' 1 5 = s.sdt.header.versionNumber →
       byteAt sec 6 = s.sdt.header.sectionNumber → exec (.secSdt sec) s = .next s))

/-- `SEC.PAT` of a section written from a header and a list of programs commits exactly them, whole, and
notifies unit 0 (R250, R255). -/
def Obligations.PatRoundTrip : Prop :=
  ∀ (s : State) (h : LongHeader) (programs : List PatEntry) (crc : BitVec 32), h.tableId ∉ s.cfg.crcExempt →
    (s.pat.valid = false ∨ h.versionNumber ≠ s.pat.header.versionNumber ∨ h.sectionNumber ≠ s.pat.header.sectionNumber) →
    exec (.secPat (patSection h programs crc)) s =
      .next (State.notify { s with pat := { valid := true, header := h, programs := programs } } .pat)

/-- `SEC.PMT` of a section written from a header, a program-info region and N streams commits exactly N
streams in order, with their types, PIDs and descriptors, and notifies unit 1 (R250, R256). -/
def Obligations.PmtRoundTrip : Prop :=
  ∀ (s : State) (h : LongHeader) (pcrPid : Pid) (info : List (Byte × Bytes)) (streams : List SynthStream)
    (crc : BitVec 32), h.tableId ∉ s.cfg.crcExempt →
    (s.pmt.valid = false ∨ h.versionNumber ≠ s.pmt.header.versionNumber ∨ h.sectionNumber ≠ s.pmt.header.sectionNumber) →
    regionFits info → (∀ x ∈ streams, regionFits x.descriptors) →
    exec (.secPmt (pmtSection h pcrPid info streams crc)) s =
      .next (State.notify
        { s with pmt :=
          { valid := true, header := h, pcrPid := pcrPid, programInfoLength := BitVec.ofNat 12 (descRegion info).length,
            programInfo := synthList s.cfg .si info,
            streams := streams.map fun x =>
              { streamType := x.streamType, elementaryPid := x.elementaryPid,
                esInfoLength := BitVec.ofNat 12 (descRegion x.descriptors).length,
                descriptors := synthList s.cfg .si x.descriptors } } } .pmt)

/-- `SEC.NIT`, `SEC.SDT`: the eight header fields (R251) and the others at their positions, the loops of `EntryLoop`
(R253), a whole commit and the unit's notification (R250, R252, R257, R258). -/
def Obligations.NitSdtCommit : Prop :=
  ∀ (s : State) (sec : Bytes) (e : Nat), e = sectionEnd s.cfg sec →
    (10 ≤ e → (s.nit.valid = false ∨ (byteAt sec 5).extractLsb' 1 5 ≠ s.nit.header.versionNumber ∨
        byteAt sec 6 ≠ s.nit.header.sectionNumber) →
      ∃ r, exec (.secNit sec) s = .next (State.notify { s with nit := r } .nit) ∧ r.valid = true ∧
        r.header = ⟨byteAt sec 0, (byteAt sec 1).extractLsb' 7 1, (u16 sec 1).extractLsb' 0 12, u16 sec 3,
          (byteAt sec 5).extractLsb' 1 5, (byteAt sec 5).extractLsb' 0 1, byteAt sec 6, byteAt sec 7⟩ ∧
        r.networkDescriptorsLength = len12 sec 8 ∧
        r.networkDescriptors = descList s.cfg .si (slice sec 10 (min (10 + (len12 sec 8).toNat) e)) ∧
        ∀ o, o = 10 + (len12 sec 8).toNat →
          (e < o + 2 → r.streamLoopLength = 0 ∧ r.streams = []) ∧
          (o + 2 ≤ e → r.streamLoopLength = len12 sec o ∧
            ∀ l, l = min (o + 2 + (len12 sec o).toNat) e →
              r.streams = entries 6 l (fun p =>
                ⟨u16 sec p, u16 sec (p + 2), len12 sec (p + 4),
                  descList s.cfg .si (slice sec (p + 6) (min (p + 6 + (len12 sec (p + 4)).toNat) l))⟩)
                (fun p => 6 + (len12 sec (p + 4)).toNat) sec.length (o + 2))) ∧
    (11 ≤ e → (s.sdt.valid = false ∨ (byteAt sec 5).extractLsb' 1 5 ≠ s.sdt.header.versionNumber ∨
        byteAt sec 6 ≠ s.sdt.header.sectionNumber) →
      ∃ r, exec (.secSdt sec) s = .next (State.notify { s with sdt := r } .sdt) ∧ r.valid = true ∧
        r.header = ⟨byteAt sec 0, (byteAt sec 1).extractLsb' 7 1, (u16 sec 1).extractLsb' 0 12, u16 sec 3,
          (byteAt sec 5).extractLsb' 1 5, (byteAt sec 5).extractLsb' 0 1, byteAt sec 6, byteAt sec 7⟩ ∧
        r.originalNetworkId = u16 sec 8 ∧
        r.services = entries 5 e (fun p =>
          ⟨u16 sec p, (byteAt sec (p + 2)).extractLsb' 1 1, (byteAt sec (p + 2)).extractLsb' 0 1,
            (byteAt sec (p + 3)).extractLsb' 5 3, (byteAt sec (p + 3)).extractLsb' 4 1, len12 sec (p + 3),
            descList s.cfg .si (slice sec (p + 5) (min (p + 5 + (len12 sec (p + 3)).toNat) e))⟩)
          (fun p => 5 + (len12 sec (p + 3)).toNat) sec.length 11)

/-- `SEC.EIT`, `SEC.TDT`, `SEC.AIT`: every well-formed section commits whole, with the header fields (R251) and the
others at their positions, and notifies, with no duplicate suppression (R250, R252, R259, R260, R261). -/
def Obligations.EitTdtAitCommit : Prop :=
  ∀ (s : State) (sec : Bytes) (e : Nat), e = sectionEnd s.cfg sec →
    (14 ≤ e →
      ∃ r, exec (.secEit sec) s = .next (State.notify { s with eit := r } .eit) ∧ r.valid = true ∧
        r.header = ⟨byteAt sec 0, (byteAt sec 1).extractLsb' 7 1, (u16 sec 1).extractLsb' 0 12, u16 sec 3,
          (byteAt sec 5).extractLsb' 1 5, (byteAt sec 5).extractLsb' 0 1, byteAt sec 6, byteAt sec 7⟩ ∧
        r.transportStreamId = u16 sec 8 ∧
        r.originalNetworkId = u16 sec 10 ∧ r.segmentLastSectionNumber = byteAt sec 12 ∧
        r.lastTableId = byteAt sec 13 ∧
        r.events = entries 12 e (fun p =>
          ⟨u16 sec p, u40 sec (p + 2), u24 sec (p + 7), (byteAt sec (p + 10)).extractLsb' 5 3,
            (byteAt sec (p + 10)).extractLsb' 4 1, len12 sec (p + 10),
            descList s.cfg .si (slice sec (p + 12) (min (p + 12 + (len12 sec (p + 10)).toNat) e))⟩)
          (fun p => 12 + (len12 sec (p + 10)).toNat) sec.length 14) ∧
    (8 ≤ e →
      exec (.secTdt sec) s = .next (State.notify
        { s with tdt := ⟨true, byteAt sec 0, (byteAt sec 1).extractLsb' 7 1, (u16 sec 1).extractLsb' 0 12, u40 sec 3⟩ } .tdt)) ∧
    (10 ≤ e →
      ∃ r, exec (.secAit sec) s = .next (State.notify { s with ait := r } .ait) ∧ r.valid = true ∧
        r.header = ⟨byteAt sec 0, (byteAt sec 1).extractLsb' 7 1, (u16 sec 1).extractLsb' 0 12, u16 sec 3,
          (byteAt sec 5).extractLsb' 1 5, (byteAt sec 5).extractLsb' 0 1, byteAt sec 6, byteAt sec 7⟩ ∧
        testApplicationFlag r = (byteAt sec 3).extractLsb' 7 1 ∧ applicationType r = (u16 sec 3).extractLsb' 0 15 ∧
        r.commonDescriptorsLength = len12 sec 8 ∧
        r.commonDescriptors = descList s.cfg .ait (slice sec 10 (min (10 + (len12 sec 8).toNat) e)) ∧
        ∀ o, o = 10 + (len12 sec 8).toNat →
          (e < o + 2 → r.applicationLoopLength = 0 ∧ r.applications = []) ∧
          (o + 2 ≤ e → r.applicationLoopLength = len12 sec o ∧
            ∀ l, l = min (o + 2 + (len12 sec o).toNat) e →
              r.applications = entries 9 l (fun p =>
                ⟨u32 sec p, u16 sec (p + 4), byteAt sec (p + 6), len12 sec (p + 7),
                  descList s.cfg .ait (slice sec (p + 9) (min (p + 9 + (len12 sec (p + 7)).toNat) l))⟩)
                (fun p => 9 + (len12 sec (p + 7)).toNat) sec.length (o + 2)))

/-- `SEC.DSMCC`: while collecting, the whole section is appended, and the collector completes and notifies
unit 7 exactly when the parameter `dsmcc_complete` holds of the list; once complete, sections are ignored
(R262, R263). -/
def Obligations.DsmccCollects : Prop :=
  ∀ (s : State) (sec : Bytes) (e : DsmccEntry), 8 ≤ sectionEnd s.cfg sec →
    e = ⟨byteAt sec 0, u16 sec 3, (byteAt sec 5).extractLsb' 1 5, byteAt sec 6, byteAt sec 7, sec⟩ →
    (s.dsmcc.state = .complete → exec (.secDsmcc sec) s = .next s) ∧
    (s.dsmcc.state = .collecting → dsmccComplete s.cfg (s.dsmcc.sections ++ [e]) = false →
      exec (.secDsmcc sec) s = .next { s with dsmcc := ⟨.collecting, s.dsmcc.sections ++ [e]⟩ }) ∧
    (s.dsmcc.state = .collecting → dsmccComplete s.cfg (s.dsmcc.sections ++ [e]) = true →
      exec (.secDsmcc sec) s =
        .next (State.notify { s with dsmcc := ⟨.complete, s.dsmcc.sections ++ [e]⟩ } .dsmcc))

/-! ## Descriptors (44_descriptors.md): each instruction appends one descriptor and changes nothing else -/

/-- What every descriptor instruction does: the descriptor of its tag and body, with the envelope fields
`0xF0`, `0xF1`, `0xF2`, `0xFF`, is appended to the list the walk builds (R300, R302). -/
def Obligations.DescriptorAppended : Prop :=
  ∀ (s : State) (ns : Namespace) (tag : Byte) (body : Bytes), body.length < 256 →
    ∃ d, exec (descInstr s.cfg ns tag body) s = .next { s with dlist := s.dlist ++ [d] } ∧ d.tag = tag ∧ d.body = body ∧
      d.length.toNat = body.length ∧ descField d 0xF0#8 0 = some (.num (tag.setWidth 64)) ∧
      descField d 0xF1#8 0 = some (.num (BitVec.ofNat 64 body.length)) ∧
      descField d 0xF2#8 0 = some (.num ((kindNumber (kindOf s.cfg ns tag)).setWidth 64)) ∧
      descField d 0xFF#8 0 = some (.str body)

/-- The kinds with fields at fixed places: `CA`, `CAROUSEL_ID`, `LINKAGE`, `COMPONENT`, `STREAM_ID`,
`DATA_BCAST_ID`, `TRANSPORT_PROTOCOL` (R307, R309, R313, R316, R317, R322, R326). -/
def Obligations.DescriptorFixedFields : Prop :=
  ∀ (s : State) (b : Bytes),
    (∃ d, exec (.descCa b) s = .next { s with dlist := s.dlist ++ [d] } ∧
      (descField d 0x00#8 0 = if 2 ≤ b.length then some (numOf (u16 b 0)) else none) ∧
      (descField d 0x01#8 0 = if 4 ≤ b.length then some (numOf ((u16 b 2).extractLsb' 0 13)) else none) ∧
      (descField d 0x02#8 0 = if 4 ≤ b.length then some (.str (b.drop 4)) else none)) ∧
    (∃ d, exec (.descCarouselId b) s = .next { s with dlist := s.dlist ++ [d] } ∧
      (descField d 0x00#8 0 = if 4 ≤ b.length then some (numOf (u32 b 0)) else none) ∧
      (descField d 0x01#8 0 = if 5 ≤ b.length then some (numOf (byteAt b 4)) else none) ∧
      (descField d 0x02#8 0 = if 5 ≤ b.length then some (.str (b.drop 5)) else none)) ∧
    (∃ d, exec (.descLinkage b) s = .next { s with dlist := s.dlist ++ [d] } ∧
      (descField d 0x00#8 0 = if 2 ≤ b.length then some (numOf (u16 b 0)) else none) ∧
      (descField d 0x01#8 0 = if 4 ≤ b.length then some (numOf (u16 b 2)) else none) ∧
      (descField d 0x02#8 0 = if 6 ≤ b.length then some (numOf (u16 b 4)) else none) ∧
      (descField d 0x03#8 0 = if 7 ≤ b.length then some (numOf (byteAt b 6)) else none) ∧
      (descField d 0x04#8 0 = if 7 ≤ b.length then some (.str (b.drop 7)) else none)) ∧
    (∃ d, exec (.descComponent b) s = .next { s with dlist := s.dlist ++ [d] } ∧
      (descField d 0x00#8 0 = if 1 ≤ b.length then some (numOf ((byteAt b 0).extractLsb' 0 4)) else none) ∧
      (descField d 0x05#8 0 = if 1 ≤ b.length then some (numOf ((byteAt b 0).extractLsb' 4 4)) else none) ∧
      (descField d 0x01#8 0 = if 2 ≤ b.length then some (numOf (byteAt b 1)) else none) ∧
      (descField d 0x02#8 0 = if 3 ≤ b.length then some (numOf (byteAt b 2)) else none) ∧
      (descField d 0x03#8 0 = if 6 ≤ b.length then some (numOf (u24 b 3)) else none) ∧
      (descField d 0x04#8 0 = if 6 ≤ b.length then some (.str (b.drop 6)) else none)) ∧
    (∃ d, exec (.descStreamId b) s = .next { s with dlist := s.dlist ++ [d] } ∧
      (descField d 0x00#8 0 = if 1 ≤ b.length then some (numOf (byteAt b 0)) else none)) ∧
    (∃ d, exec (.descDataBcastId b) s = .next { s with dlist := s.dlist ++ [d] } ∧
      (descField d 0x00#8 0 = if 2 ≤ b.length then some (numOf (u16 b 0)) else none) ∧
      (descField d 0x01#8 0 = if 2 ≤ b.length then some (.str (b.drop 2)) else none)) ∧
    (∃ d, exec (.descTransportProtocol b) s = .next { s with dlist := s.dlist ++ [d] } ∧
      (descField d 0x00#8 0 = if 2 ≤ b.length then some (numOf (u16 b 0)) else none) ∧
      (descField d 0x01#8 0 = if 3 ≤ b.length then some (numOf (byteAt b 2)) else none) ∧
      (descField d 0x02#8 0 = if 3 ≤ b.length then some (.str (b.drop 3)) else none))

/-- The kinds that are one loop of fixed-size elements: the count is the number of whole elements, and
element `i` is found exactly when it is below the count (R302, R308, R311, R318 to R321, R323). -/
def Obligations.DescriptorLoops : Prop :=
  ∀ (s : State) (b : Bytes) (i : Nat),
    (∃ d, exec (.descIso639 b) s = .next { s with dlist := s.dlist ++ [d] } ∧
      descField d 0x00#8 0 = some (.num (BitVec.ofNat 64 (b.length / 4))) ∧
      (descField d 0x01#8 i = if i < b.length / 4 then some (numOf (u24 b (4 * i))) else none) ∧
      (descField d 0x02#8 i = if i < b.length / 4 then some (numOf (byteAt b (4 * i + 3))) else none)) ∧
    (∃ d, exec (.descServiceList b) s = .next { s with dlist := s.dlist ++ [d] } ∧
      descField d 0x00#8 0 = some (.num (BitVec.ofNat 64 (b.length / 3))) ∧
      (descField d 0x01#8 i = if i < b.length / 3 then some (numOf (u16 b (3 * i))) else none) ∧
      (descField d 0x02#8 i = if i < b.length / 3 then some (numOf (byteAt b (3 * i + 2))) else none)) ∧
    (∃ d, exec (.descContent b) s = .next { s with dlist := s.dlist ++ [d] } ∧
      descField d 0x00#8 0 = some (.num (BitVec.ofNat 64 (b.length / 2))) ∧
      (descField d 0x01#8 i = if i < b.length / 2 then some (numOf ((byteAt b (2 * i)).extractLsb' 4 4)) else none) ∧
      (descField d 0x02#8 i = if i < b.length / 2 then some (numOf ((byteAt b (2 * i)).extractLsb' 0 4)) else none) ∧
      (descField d 0x03#8 i = if i < b.length / 2 then some (numOf (byteAt b (2 * i + 1))) else none)) ∧
    (∃ d, exec (.descParental b) s = .next { s with dlist := s.dlist ++ [d] } ∧
      descField d 0x00#8 0 = some (.num (BitVec.ofNat 64 (b.length / 4))) ∧
      (descField d 0x01#8 i = if i < b.length / 4 then some (numOf (u24 b (4 * i))) else none) ∧
      (descField d 0x02#8 i = if i < b.length / 4 then some (numOf (byteAt b (4 * i + 3))) else none)) ∧
    (∃ d, exec (.descTeletext b) s = .next { s with dlist := s.dlist ++ [d] } ∧
      descField d 0x00#8 0 = some (.num (BitVec.ofNat 64 (b.length / 5))) ∧
      (descField d 0x01#8 i = if i < b.length / 5 then some (numOf (u24 b (5 * i))) else none) ∧
      (descField d 0x02#8 i = if i < b.length / 5 then some (numOf ((byteAt b (5 * i + 3)).extractLsb' 3 5)) else none) ∧
      (descField d 0x03#8 i = if i < b.length / 5 then some (numOf ((byteAt b (5 * i + 3)).extractLsb' 0 3)) else none) ∧
      (descField d 0x04#8 i = if i < b.length / 5 then some (numOf (byteAt b (5 * i + 4))) else none)) ∧
    (∃ d, exec (.descSubtitling b) s = .next { s with dlist := s.dlist ++ [d] } ∧
      descField d 0x00#8 0 = some (.num (BitVec.ofNat 64 (b.length / 8))) ∧
      (descField d 0x01#8 i = if i < b.length / 8 then some (numOf (u24 b (8 * i))) else none) ∧
      (descField d 0x02#8 i = if i < b.length / 8 then some (numOf (byteAt b (8 * i + 3))) else none) ∧
      (descField d 0x03#8 i = if i < b.length / 8 then some (numOf (u16 b (8 * i + 4))) else none) ∧
      (descField d 0x04#8 i = if i < b.length / 8 then some (numOf (u16 b (8 * i + 6))) else none)) ∧
    (∃ d, exec (.descAppSignalling b) s = .next { s with dlist := s.dlist ++ [d] } ∧
      descField d 0x00#8 0 = some (.num (BitVec.ofNat 64 (b.length / 3))) ∧
      (descField d 0x01#8 i = if i < b.length / 3 then some (numOf ((u16 b (3 * i)).extractLsb' 0 15)) else none) ∧
      (descField d 0x02#8 i = if i < b.length / 3 then some (numOf ((byteAt b (3 * i + 2)).extractLsb' 0 5)) else none))

/-- The kinds with strings of a declared length, read from a body written from its parts: `NETWORK_NAME`,
`SERVICE`, `SHORT_EVENT`, `APPLICATION` with one profile, `GENERIC` (R303, R310, R312, R314, R324). -/
def Obligations.DescriptorStrings : Prop :=
  ∀ (s : State) (x y : Bytes) (a c : Byte) (lang : BitVec 24), x.length < 256 → y.length < 256 →
    (∃ d, exec (.descNetworkName x) s = .next { s with dlist := s.dlist ++ [d] } ∧ descField d 0x00#8 0 = some (.str x)) ∧
    (∃ d, exec (.descService ([a, BitVec.ofNat 8 x.length] ++ x ++ [BitVec.ofNat 8 y.length] ++ y)) s =
        .next { s with dlist := s.dlist ++ [d] } ∧
      descField d 0x00#8 0 = some (numOf a) ∧ descField d 0x01#8 0 = some (.num (BitVec.ofNat 64 x.length)) ∧
      descField d 0x02#8 0 = some (.str x) ∧ descField d 0x03#8 0 = some (.num (BitVec.ofNat 64 y.length)) ∧
      descField d 0x04#8 0 = some (.str y)) ∧
    (∃ d, exec (.descShortEvent ([lang.extractLsb' 16 8, lang.extractLsb' 8 8, lang.extractLsb' 0 8,
          BitVec.ofNat 8 x.length] ++ x ++ [BitVec.ofNat 8 y.length] ++ y)) s = .next { s with dlist := s.dlist ++ [d] } ∧
      descField d 0x00#8 0 = some (numOf lang) ∧ descField d 0x01#8 0 = some (.num (BitVec.ofNat 64 x.length)) ∧
      descField d 0x02#8 0 = some (.str x) ∧ descField d 0x03#8 0 = some (.num (BitVec.ofNat 64 y.length)) ∧
      descField d 0x04#8 0 = some (.str y)) ∧
    (∀ (profile : BitVec 16) (mj mn mc : Byte) (labels : Bytes) (i : Nat),
      ∃ d, exec (.descApplication ([5#8] ++ be16 profile ++ [mj, mn, mc, a, c] ++ labels)) s =
          .next { s with dlist := s.dlist ++ [d] } ∧
        descField d 0x00#8 0 = some (.num 5) ∧ descField d 0x01#8 0 = some (.num 1) ∧
        descField d 0x02#8 0 = some (numOf profile) ∧ descField d 0x03#8 0 = some (numOf mj) ∧
        descField d 0x04#8 0 = some (numOf mn) ∧ descField d 0x05#8 0 = some (numOf mc) ∧ descField d 0x05#8 1 = none ∧
        descField d 0x06#8 0 = some (numOf (a.extractLsb' 7 1)) ∧ descField d 0x07#8 0 = some (numOf (a.extractLsb' 5 2)) ∧
        descField d 0x08#8 0 = some (numOf c) ∧ descField d 0x09#8 0 = some (.num (BitVec.ofNat 64 labels.length)) ∧
        descField d 0x0A#8 i = labels[i]?.map numOf) ∧
    (∀ (ns : Namespace) (fid : Byte) (i : Nat), fid.toNat < 0xF0 →
      ∃ d, exec (.descGeneric ns a x) s = .next { s with dlist := s.dlist ++ [d] } ∧ d.tag = a ∧ d.body = x ∧
        descField d fid i = none)

/-- The kinds with a list of variable-size elements, read from a body written from its parts: the items of
`EXT_EVENT` and the names of `APP_NAME`, in order (R315, R325). -/
def Obligations.DescriptorItems : Prop :=
  (∀ (s : State) (items : List (Bytes × Bytes)) (text : Bytes) (nn : Byte) (lang : BitVec 24) (region : Bytes),
    (∀ e ∈ items, e.1.length < 256 ∧ e.2.length < 256) → text.length < 256 →
    region = (items.flatMap fun e => [BitVec.ofNat 8 e.1.length] ++ e.1 ++ [BitVec.ofNat 8 e.2.length] ++ e.2) →
    region.length < 256 →
    ∃ d, exec (.descExtEvent ([nn, lang.extractLsb' 16 8, lang.extractLsb' 8 8, lang.extractLsb' 0 8,
          BitVec.ofNat 8 region.length] ++ region ++ [BitVec.ofNat 8 text.length] ++ text)) s =
        .next { s with dlist := s.dlist ++ [d] } ∧
      descField d 0x00#8 0 = some (numOf (nn.extractLsb' 4 4)) ∧ descField d 0x01#8 0 = some (numOf (nn.extractLsb' 0 4)) ∧
      descField d 0x02#8 0 = some (numOf lang) ∧ descField d 0x03#8 0 = some (.num (BitVec.ofNat 64 region.length)) ∧
      descField d 0x04#8 0 = some (.num (BitVec.ofNat 64 items.length)) ∧
      (∀ i, descField d 0x05#8 i = items[i]?.map fun e => .str e.1) ∧
      (∀ i, descField d 0x06#8 i = items[i]?.map fun e => .str e.2) ∧
      descField d 0x07#8 0 = some (.num (BitVec.ofNat 64 text.length)) ∧ descField d 0x08#8 0 = some (.str text)) ∧
  (∀ (s : State) (names : List (BitVec 24 × Bytes)), (∀ e ∈ names, e.2.length < 256) →
    ∃ d, exec (.descAppName (names.flatMap fun e => [e.1.extractLsb' 16 8, e.1.extractLsb' 8 8, e.1.extractLsb' 0 8,
          BitVec.ofNat 8 e.2.length] ++ e.2)) s = .next { s with dlist := s.dlist ++ [d] } ∧
      descField d 0x00#8 0 = some (.num (BitVec.ofNat 64 names.length)) ∧
      (∀ i, descField d 0x01#8 i = names[i]?.map fun e => numOf e.1) ∧
      (∀ i, descField d 0x02#8 i = names[i]?.map fun e => .num (BitVec.ofNat 64 e.2.length)) ∧
      (∀ i, descField d 0x03#8 i = names[i]?.map fun e => .str e.2))

/-! ## Packet decoders (45_packet_decoders.md) -/

/-- `PCR.DECODE`: `base * 300 + ext`, exactly, when the adaptation field is whole and holds the field, and the
notification of unit 8 after it; else nothing (R351, R352). -/
def Obligations.PcrFormula : Prop :=
  ∀ (s : State) (pid : Pid) (afl : Byte) (f : BitVec 48),
    (7 ≤ afl.toNat ∧ 5 + afl.toNat ≤ 188 →
      ∃ v, exec (.pcrDecode pid afl f) s = .next (State.notify { s with pcr := ⟨true, v⟩ } .pcr) ∧
        v.toNat = f.toNat / 2 ^ 15 * 300 + f.toNat % 2 ^ 9) ∧
    (¬(7 ≤ afl.toNat ∧ 5 + afl.toNat ≤ 188) → exec (.pcrDecode pid afl f) s = .next s)

/-- `EBU.HEADER`: a header for an open page completes it: with the slot enabled the notification of unit 9 stands
and the lines stay readable; without it they are dropped; another page is opened, empty (R355, R357).
`EBU.LINE`: appended in arrival order to an open page, discarded for any other; no notification (R356). -/
def Obligations.EbuAccumulator : Prop :=
  (∀ (s : State) (k : EbuKey), Memory.wf s = true →
     ((s.pageOf k).isOpen = true → s.cbEnabled .ebu = true →
       exec (.ebuHeader k) s = .next { s with ebuDone := some k, pending := .ebu, phase := .inNotify,
                                              out := s.out ++ [.notify .ebu] }) ∧
     ((s.pageOf k).isOpen = true → s.cbEnabled .ebu = false →
       ∃ t, exec (.ebuHeader k) s = .next t ∧ t = { s with ebu := t.ebu } ∧ t.pageOf k = ⟨true, []⟩ ∧
         ∀ j, j ≠ k → t.pageOf j = s.pageOf j) ∧
     ((s.pageOf k).isOpen = false →
       ∃ t, exec (.ebuHeader k) s = .next t ∧ t = { s with ebu := t.ebu } ∧ t.pageOf k = ⟨true, []⟩ ∧
         ∀ j, j ≠ k → t.pageOf j = s.pageOf j)) ∧
  (∀ (s : State) (k : EbuKey) (row : Byte) (data : Bytes), Memory.wf s = true →
     ((s.pageOf k).isOpen = false → exec (.ebuLine k row data) s = .next s) ∧
     ((s.pageOf k).isOpen = true →
       ∃ t, exec (.ebuLine k row data) s = .next t ∧ t = { s with ebu := t.ebu } ∧
         t.pageOf k = ⟨true, (s.pageOf k).lines ++ [⟨row, data⟩]⟩ ∧
         (∀ j, readByte t (.ebu k (s.pageOf k).lines.length j) = data[j]?) ∧
         ∀ j, j ≠ k → t.pageOf j = s.pageOf j))

end
end

