-- ==== Sys2Proof/Laws/State.lean ====
section
/-! SUPPORT. What each named operation leaves in each field of the state: one lemma per field per update, so
that no proof unfolds a record update. -/

namespace Sys2Proof.Machine

/-! ### `State.raise` -/

@[simp] theorem State.raise_cfg (s : State) (c : ErrCode) : (s.raise c).cfg = s.cfg := rfl
@[simp] theorem State.raise_bind (s : State) (c : ErrCode) : (s.raise c).bind = s.bind := rfl
@[simp] theorem State.raise_cbEn (s : State) (c : ErrCode) : (s.raise c).cbEn = s.cbEn := rfl
@[simp] theorem State.raise_packets (s : State) (c : ErrCode) : (s.raise c).packets = s.packets := rfl
@[simp] theorem State.raise_errors (s : State) (c : ErrCode) : (s.raise c).errors = satInc s.cfg s.errors := rfl
@[simp] theorem State.raise_pcr (s : State) (c : ErrCode) : (s.raise c).pcr = s.pcr := rfl
@[simp] theorem State.raise_phase (s : State) (c : ErrCode) : (s.raise c).phase = s.phase := rfl
@[simp] theorem State.raise_pending (s : State) (c : ErrCode) : (s.raise c).pending = s.pending := rfl
@[simp] theorem State.raise_ebuDone (s : State) (c : ErrCode) : (s.raise c).ebuDone = s.ebuDone := rfl
@[simp] theorem State.raise_ctx (s : State) (c : ErrCode) : (s.raise c).ctx = s.ctx := rfl
@[simp] theorem State.raise_carry (s : State) (c : ErrCode) : (s.raise c).carry = s.carry := rfl
@[simp] theorem State.raise_pat (s : State) (c : ErrCode) : (s.raise c).pat = s.pat := rfl
@[simp] theorem State.raise_pmt (s : State) (c : ErrCode) : (s.raise c).pmt = s.pmt := rfl
@[simp] theorem State.raise_nit (s : State) (c : ErrCode) : (s.raise c).nit = s.nit := rfl
@[simp] theorem State.raise_sdt (s : State) (c : ErrCode) : (s.raise c).sdt = s.sdt := rfl
@[simp] theorem State.raise_eit (s : State) (c : ErrCode) : (s.raise c).eit = s.eit := rfl
@[simp] theorem State.raise_tdt (s : State) (c : ErrCode) : (s.raise c).tdt = s.tdt := rfl
@[simp] theorem State.raise_ait (s : State) (c : ErrCode) : (s.raise c).ait = s.ait := rfl
@[simp] theorem State.raise_dsmcc (s : State) (c : ErrCode) : (s.raise c).dsmcc = s.dsmcc := rfl
@[simp] theorem State.raise_ebu (s : State) (c : ErrCode) : (s.raise c).ebu = s.ebu := rfl
@[simp] theorem State.raise_hdr (s : State) (c : ErrCode) : (s.raise c).hdr = s.hdr := rfl
@[simp] theorem State.raise_pc (s : State) (c : ErrCode) : (s.raise c).pc = s.pc := rfl
@[simp] theorem State.raise_batchErr (s : State) (c : ErrCode) : (s.raise c).batchErr = true := rfl
@[simp] theorem State.raise_stream (s : State) (c : ErrCode) : (s.raise c).stream = s.stream := rfl
@[simp] theorem State.raise_work (s : State) (c : ErrCode) : (s.raise c).work = s.work := rfl
@[simp] theorem State.raise_dlist (s : State) (c : ErrCode) : (s.raise c).dlist = s.dlist := rfl
@[simp] theorem State.raise_host (s : State) (c : ErrCode) : (s.raise c).host = s.host := rfl
@[simp] theorem State.raise_out (s : State) (c : ErrCode) : (s.raise c).out = s.out ++ [.error c] := rfl

/-! ### `State.respond` -/

@[simp] theorem State.respond_cfg (s : State) (r : Response) : (s.respond r).cfg = s.cfg := rfl
@[simp] theorem State.respond_bind (s : State) (r : Response) : (s.respond r).bind = s.bind := rfl
@[simp] theorem State.respond_cbEn (s : State) (r : Response) : (s.respond r).cbEn = s.cbEn := rfl
@[simp] theorem State.respond_packets (s : State) (r : Response) : (s.respond r).packets = s.packets := rfl
@[simp] theorem State.respond_errors (s : State) (r : Response) : (s.respond r).errors = s.errors := rfl
@[simp] theorem State.respond_pcr (s : State) (r : Response) : (s.respond r).pcr = s.pcr := rfl
@[simp] theorem State.respond_phase (s : State) (r : Response) : (s.respond r).phase = s.phase := rfl
@[simp] theorem State.respond_pending (s : State) (r : Response) : (s.respond r).pending = s.pending := rfl
@[simp] theorem State.respond_ebuDone (s : State) (r : Response) : (s.respond r).ebuDone = s.ebuDone := rfl
@[simp] theorem State.respond_ctx (s : State) (r : Response) : (s.respond r).ctx = s.ctx := rfl
@[simp] theorem State.respond_carry (s : State) (r : Response) : (s.respond r).carry = s.carry := rfl
@[simp] theorem State.respond_pat (s : State) (r : Response) : (s.respond r).pat = s.pat := rfl
@[simp] theorem State.respond_pmt (s : State) (r : Response) : (s.respond r).pmt = s.pmt := rfl
@[simp] theorem State.respond_nit (s : State) (r : Response) : (s.respond r).nit = s.nit := rfl
@[simp] theorem State.respond_sdt (s : State) (r : Response) : (s.respond r).sdt = s.sdt := rfl
@[simp] theorem State.respond_eit (s : State) (r : Response) : (s.respond r).eit = s.eit := rfl
@[simp] theorem State.respond_tdt (s : State) (r : Response) : (s.respond r).tdt = s.tdt := rfl
@[simp] theorem State.respond_ait (s : State) (r : Response) : (s.respond r).ait = s.ait := rfl
@[simp] theorem State.respond_dsmcc (s : State) (r : Response) : (s.respond r).dsmcc = s.dsmcc := rfl
@[simp] theorem State.respond_ebu (s : State) (r : Response) : (s.respond r).ebu = s.ebu := rfl
@[simp] theorem State.respond_hdr (s : State) (r : Response) : (s.respond r).hdr = s.hdr := rfl
@[simp] theorem State.respond_pc (s : State) (r : Response) : (s.respond r).pc = s.pc := rfl
@[simp] theorem State.respond_batchErr (s : State) (r : Response) : (s.respond r).batchErr = s.batchErr := rfl
@[simp] theorem State.respond_stream (s : State) (r : Response) : (s.respond r).stream = s.stream := rfl
@[simp] theorem State.respond_work (s : State) (r : Response) : (s.respond r).work = s.work := rfl
@[simp] theorem State.respond_dlist (s : State) (r : Response) : (s.respond r).dlist = s.dlist := rfl
@[simp] theorem State.respond_host (s : State) (r : Response) : (s.respond r).host = s.host := rfl
@[simp] theorem State.respond_out (s : State) (r : Response) : (s.respond r).out = s.out ++ [.response r] := rfl

/-! ### `State.push` -/

@[simp] theorem State.push_cfg (s : State) (w : List Work) : (s.push w).cfg = s.cfg := rfl
@[simp] theorem State.push_bind (s : State) (w : List Work) : (s.push w).bind = s.bind := rfl
@[simp] theorem State.push_cbEn (s : State) (w : List Work) : (s.push w).cbEn = s.cbEn := rfl
@[simp] theorem State.push_packets (s : State) (w : List Work) : (s.push w).packets = s.packets := rfl
@[simp] theorem State.push_errors (s : State) (w : List Work) : (s.push w).errors = s.errors := rfl
@[simp] theorem State.push_pcr (s : State) (w : List Work) : (s.push w).pcr = s.pcr := rfl
@[simp] theorem State.push_phase (s : State) (w : List Work) : (s.push w).phase = s.phase := rfl
@[simp] theorem State.push_pending (s : State) (w : List Work) : (s.push w).pending = s.pending := rfl
@[simp] theorem State.push_ebuDone (s : State) (w : List Work) : (s.push w).ebuDone = s.ebuDone := rfl
@[simp] theorem State.push_ctx (s : State) (w : List Work) : (s.push w).ctx = s.ctx := rfl
@[simp] theorem State.push_carry (s : State) (w : List Work) : (s.push w).carry = s.carry := rfl
@[simp] theorem State.push_pat (s : State) (w : List Work) : (s.push w).pat = s.pat := rfl
@[simp] theorem State.push_pmt (s : State) (w : List Work) : (s.push w).pmt = s.pmt := rfl
@[simp] theorem State.push_nit (s : State) (w : List Work) : (s.push w).nit = s.nit := rfl
@[simp] theorem State.push_sdt (s : State) (w : List Work) : (s.push w).sdt = s.sdt := rfl
@[simp] theorem State.push_eit (s : State) (w : List Work) : (s.push w).eit = s.eit := rfl
@[simp] theorem State.push_tdt (s : State) (w : List Work) : (s.push w).tdt = s.tdt := rfl
@[simp] theorem State.push_ait (s : State) (w : List Work) : (s.push w).ait = s.ait := rfl
@[simp] theorem State.push_dsmcc (s : State) (w : List Work) : (s.push w).dsmcc = s.dsmcc := rfl
@[simp] theorem State.push_ebu (s : State) (w : List Work) : (s.push w).ebu = s.ebu := rfl
@[simp] theorem State.push_hdr (s : State) (w : List Work) : (s.push w).hdr = s.hdr := rfl
@[simp] theorem State.push_pc (s : State) (w : List Work) : (s.push w).pc = s.pc := rfl
@[simp] theorem State.push_batchErr (s : State) (w : List Work) : (s.push w).batchErr = s.batchErr := rfl
@[simp] theorem State.push_stream (s : State) (w : List Work) : (s.push w).stream = s.stream := rfl
@[simp] theorem State.push_work (s : State) (w : List Work) : (s.push w).work = w ++ s.work := rfl
@[simp] theorem State.push_dlist (s : State) (w : List Work) : (s.push w).dlist = s.dlist := rfl
@[simp] theorem State.push_host (s : State) (w : List Work) : (s.push w).host = s.host := rfl
@[simp] theorem State.push_out (s : State) (w : List Work) : (s.push w).out = s.out := rfl

/-! ### `State.addDescriptor` -/

@[simp] theorem State.addDescriptor_cfg (s : State) (d : Descriptor) : (s.addDescriptor d).cfg = s.cfg := rfl
@[simp] theorem State.addDescriptor_bind (s : State) (d : Descriptor) : (s.addDescriptor d).bind = s.bind := rfl
@[simp] theorem State.addDescriptor_cbEn (s : State) (d : Descriptor) : (s.addDescriptor d).cbEn = s.cbEn := rfl
@[simp] theorem State.addDescriptor_packets (s : State) (d : Descriptor) : (s.addDescriptor d).packets = s.packets := rfl
@[simp] theorem State.addDescriptor_errors (s : State) (d : Descriptor) : (s.addDescriptor d).errors = s.errors := rfl
@[simp] theorem State.addDescriptor_pcr (s : State) (d : Descriptor) : (s.addDescriptor d).pcr = s.pcr := rfl
@[simp] theorem State.addDescriptor_phase (s : State) (d : Descriptor) : (s.addDescriptor d).phase = s.phase := rfl
@[simp] theorem State.addDescriptor_pending (s : State) (d : Descriptor) : (s.addDescriptor d).pending = s.pending := rfl
@[simp] theorem State.addDescriptor_ebuDone (s : State) (d : Descriptor) : (s.addDescriptor d).ebuDone = s.ebuDone := rfl
@[simp] theorem State.addDescriptor_ctx (s : State) (d : Descriptor) : (s.addDescriptor d).ctx = s.ctx := rfl
@[simp] theorem State.addDescriptor_carry (s : State) (d : Descriptor) : (s.addDescriptor d).carry = s.carry := rfl
@[simp] theorem State.addDescriptor_pat (s : State) (d : Descriptor) : (s.addDescriptor d).pat = s.pat := rfl
@[simp] theorem State.addDescriptor_pmt (s : State) (d : Descriptor) : (s.addDescriptor d).pmt = s.pmt := rfl
@[simp] theorem State.addDescriptor_nit (s : State) (d : Descriptor) : (s.addDescriptor d).nit = s.nit := rfl
@[simp] theorem State.addDescriptor_sdt (s : State) (d : Descriptor) : (s.addDescriptor d).sdt = s.sdt := rfl
@[simp] theorem State.addDescriptor_eit (s : State) (d : Descriptor) : (s.addDescriptor d).eit = s.eit := rfl
@[simp] theorem State.addDescriptor_tdt (s : State) (d : Descriptor) : (s.addDescriptor d).tdt = s.tdt := rfl
@[simp] theorem State.addDescriptor_ait (s : State) (d : Descriptor) : (s.addDescriptor d).ait = s.ait := rfl
@[simp] theorem State.addDescriptor_dsmcc (s : State) (d : Descriptor) : (s.addDescriptor d).dsmcc = s.dsmcc := rfl
@[simp] theorem State.addDescriptor_ebu (s : State) (d : Descriptor) : (s.addDescriptor d).ebu = s.ebu := rfl
@[simp] theorem State.addDescriptor_hdr (s : State) (d : Descriptor) : (s.addDescriptor d).hdr = s.hdr := rfl
@[simp] theorem State.addDescriptor_pc (s : State) (d : Descriptor) : (s.addDescriptor d).pc = s.pc := rfl
@[simp] theorem State.addDescriptor_batchErr (s : State) (d : Descriptor) : (s.addDescriptor d).batchErr = s.batchErr := rfl
@[simp] theorem State.addDescriptor_stream (s : State) (d : Descriptor) : (s.addDescriptor d).stream = s.stream := rfl
@[simp] theorem State.addDescriptor_work (s : State) (d : Descriptor) : (s.addDescriptor d).work = s.work := rfl
@[simp] theorem State.addDescriptor_dlist (s : State) (d : Descriptor) : (s.addDescriptor d).dlist = s.dlist ++ [d] := rfl
@[simp] theorem State.addDescriptor_host (s : State) (d : Descriptor) : (s.addDescriptor d).host = s.host := rfl
@[simp] theorem State.addDescriptor_out (s : State) (d : Descriptor) : (s.addDescriptor d).out = s.out := rfl

/-! ### `State.setCtx` -/

@[simp] theorem State.setCtx_cfg (s : State) (p : Pid) (c : Ctx) : (s.setCtx p c).cfg = s.cfg := rfl
@[simp] theorem State.setCtx_bind (s : State) (p : Pid) (c : Ctx) : (s.setCtx p c).bind = s.bind := rfl
@[simp] theorem State.setCtx_cbEn (s : State) (p : Pid) (c : Ctx) : (s.setCtx p c).cbEn = s.cbEn := rfl
@[simp] theorem State.setCtx_packets (s : State) (p : Pid) (c : Ctx) : (s.setCtx p c).packets = s.packets := rfl
@[simp] theorem State.setCtx_errors (s : State) (p : Pid) (c : Ctx) : (s.setCtx p c).errors = s.errors := rfl
@[simp] theorem State.setCtx_pcr (s : State) (p : Pid) (c : Ctx) : (s.setCtx p c).pcr = s.pcr := rfl
@[simp] theorem State.setCtx_phase (s : State) (p : Pid) (c : Ctx) : (s.setCtx p c).phase = s.phase := rfl
@[simp] theorem State.setCtx_pending (s : State) (p : Pid) (c : Ctx) : (s.setCtx p c).pending = s.pending := rfl
@[simp] theorem State.setCtx_ebuDone (s : State) (p : Pid) (c : Ctx) : (s.setCtx p c).ebuDone = s.ebuDone := rfl
@[simp] theorem State.setCtx_ctx (s : State) (p : Pid) (c : Ctx) : (s.setCtx p c).ctx = SMap.set {} p.toNat c s.ctx := rfl
@[simp] theorem State.setCtx_carry (s : State) (p : Pid) (c : Ctx) : (s.setCtx p c).carry = s.carry := rfl
@[simp] theorem State.setCtx_pat (s : State) (p : Pid) (c : Ctx) : (s.setCtx p c).pat = s.pat := rfl
@[simp] theorem State.setCtx_pmt (s : State) (p : Pid) (c : Ctx) : (s.setCtx p c).pmt = s.pmt := rfl
@[simp] theorem State.setCtx_nit (s : State) (p : Pid) (c : Ctx) : (s.setCtx p c).nit = s.nit := rfl
@[simp] theorem State.setCtx_sdt (s : State) (p : Pid) (c : Ctx) : (s.setCtx p c).sdt = s.sdt := rfl
@[simp] theorem State.setCtx_eit (s : State) (p : Pid) (c : Ctx) : (s.setCtx p c).eit = s.eit := rfl
@[simp] theorem State.setCtx_tdt (s : State) (p : Pid) (c : Ctx) : (s.setCtx p c).tdt = s.tdt := rfl
@[simp] theorem State.setCtx_ait (s : State) (p : Pid) (c : Ctx) : (s.setCtx p c).ait = s.ait := rfl
@[simp] theorem State.setCtx_dsmcc (s : State) (p : Pid) (c : Ctx) : (s.setCtx p c).dsmcc = s.dsmcc := rfl
@[simp] theorem State.setCtx_ebu (s : State) (p : Pid) (c : Ctx) : (s.setCtx p c).ebu = s.ebu := rfl
@[simp] theorem State.setCtx_hdr (s : State) (p : Pid) (c : Ctx) : (s.setCtx p c).hdr = s.hdr := rfl
@[simp] theorem State.setCtx_pc (s : State) (p : Pid) (c : Ctx) : (s.setCtx p c).pc = s.pc := rfl
@[simp] theorem State.setCtx_batchErr (s : State) (p : Pid) (c : Ctx) : (s.setCtx p c).batchErr = s.batchErr := rfl
@[simp] theorem State.setCtx_stream (s : State) (p : Pid) (c : Ctx) : (s.setCtx p c).stream = s.stream := rfl
@[simp] theorem State.setCtx_work (s : State) (p : Pid) (c : Ctx) : (s.setCtx p c).work = s.work := rfl
@[simp] theorem State.setCtx_dlist (s : State) (p : Pid) (c : Ctx) : (s.setCtx p c).dlist = s.dlist := rfl
@[simp] theorem State.setCtx_host (s : State) (p : Pid) (c : Ctx) : (s.setCtx p c).host = s.host := rfl
@[simp] theorem State.setCtx_out (s : State) (p : Pid) (c : Ctx) : (s.setCtx p c).out = s.out := rfl

/-! ### `State.setPage` -/

@[simp] theorem State.setPage_cfg (s : State) (k : EbuKey) (pg : EbuPage) : (s.setPage k pg).cfg = s.cfg := rfl
@[simp] theorem State.setPage_bind (s : State) (k : EbuKey) (pg : EbuPage) : (s.setPage k pg).bind = s.bind := rfl
@[simp] theorem State.setPage_cbEn (s : State) (k : EbuKey) (pg : EbuPage) : (s.setPage k pg).cbEn = s.cbEn := rfl
@[simp] theorem State.setPage_packets (s : State) (k : EbuKey) (pg : EbuPage) : (s.setPage k pg).packets = s.packets := rfl
@[simp] theorem State.setPage_errors (s : State) (k : EbuKey) (pg : EbuPage) : (s.setPage k pg).errors = s.errors := rfl
@[simp] theorem State.setPage_pcr (s : State) (k : EbuKey) (pg : EbuPage) : (s.setPage k pg).pcr = s.pcr := rfl
@[simp] theorem State.setPage_phase (s : State) (k : EbuKey) (pg : EbuPage) : (s.setPage k pg).phase = s.phase := rfl
@[simp] theorem State.setPage_pending (s : State) (k : EbuKey) (pg : EbuPage) : (s.setPage k pg).pending = s.pending := rfl
@[simp] theorem State.setPage_ebuDone (s : State) (k : EbuKey) (pg : EbuPage) : (s.setPage k pg).ebuDone = s.ebuDone := rfl
@[simp] theorem State.setPage_ctx (s : State) (k : EbuKey) (pg : EbuPage) : (s.setPage k pg).ctx = s.ctx := rfl
@[simp] theorem State.setPage_carry (s : State) (k : EbuKey) (pg : EbuPage) : (s.setPage k pg).carry = s.carry := rfl
@[simp] theorem State.setPage_pat (s : State) (k : EbuKey) (pg : EbuPage) : (s.setPage k pg).pat = s.pat := rfl
@[simp] theorem State.setPage_pmt (s : State) (k : EbuKey) (pg : EbuPage) : (s.setPage k pg).pmt = s.pmt := rfl
@[simp] theorem State.setPage_nit (s : State) (k : EbuKey) (pg : EbuPage) : (s.setPage k pg).nit = s.nit := rfl
@[simp] theorem State.setPage_sdt (s : State) (k : EbuKey) (pg : EbuPage) : (s.setPage k pg).sdt = s.sdt := rfl
@[simp] theorem State.setPage_eit (s : State) (k : EbuKey) (pg : EbuPage) : (s.setPage k pg).eit = s.eit := rfl
@[simp] theorem State.setPage_tdt (s : State) (k : EbuKey) (pg : EbuPage) : (s.setPage k pg).tdt = s.tdt := rfl
@[simp] theorem State.setPage_ait (s : State) (k : EbuKey) (pg : EbuPage) : (s.setPage k pg).ait = s.ait := rfl
@[simp] theorem State.setPage_dsmcc (s : State) (k : EbuKey) (pg : EbuPage) : (s.setPage k pg).dsmcc = s.dsmcc := rfl
@[simp] theorem State.setPage_ebu (s : State) (k : EbuKey) (pg : EbuPage) : (s.setPage k pg).ebu = SMap.set {} (keyIndex k) pg s.ebu := rfl
@[simp] theorem State.setPage_hdr (s : State) (k : EbuKey) (pg : EbuPage) : (s.setPage k pg).hdr = s.hdr := rfl
@[simp] theorem State.setPage_pc (s : State) (k : EbuKey) (pg : EbuPage) : (s.setPage k pg).pc = s.pc := rfl
@[simp] theorem State.setPage_batchErr (s : State) (k : EbuKey) (pg : EbuPage) : (s.setPage k pg).batchErr = s.batchErr := rfl
@[simp] theorem State.setPage_stream (s : State) (k : EbuKey) (pg : EbuPage) : (s.setPage k pg).stream = s.stream := rfl
@[simp] theorem State.setPage_work (s : State) (k : EbuKey) (pg : EbuPage) : (s.setPage k pg).work = s.work := rfl
@[simp] theorem State.setPage_dlist (s : State) (k : EbuKey) (pg : EbuPage) : (s.setPage k pg).dlist = s.dlist := rfl
@[simp] theorem State.setPage_host (s : State) (k : EbuKey) (pg : EbuPage) : (s.setPage k pg).host = s.host := rfl
@[simp] theorem State.setPage_out (s : State) (k : EbuKey) (pg : EbuPage) : (s.setPage k pg).out = s.out := rfl

/-! ### `State.clearLines` -/

@[simp] theorem State.clearLines_cfg (s : State) (k : EbuKey) : (s.clearLines k).cfg = s.cfg := rfl
@[simp] theorem State.clearLines_bind (s : State) (k : EbuKey) : (s.clearLines k).bind = s.bind := rfl
@[simp] theorem State.clearLines_cbEn (s : State) (k : EbuKey) : (s.clearLines k).cbEn = s.cbEn := rfl
@[simp] theorem State.clearLines_packets (s : State) (k : EbuKey) : (s.clearLines k).packets = s.packets := rfl
@[simp] theorem State.clearLines_errors (s : State) (k : EbuKey) : (s.clearLines k).errors = s.errors := rfl
@[simp] theorem State.clearLines_pcr (s : State) (k : EbuKey) : (s.clearLines k).pcr = s.pcr := rfl
@[simp] theorem State.clearLines_phase (s : State) (k : EbuKey) : (s.clearLines k).phase = s.phase := rfl
@[simp] theorem State.clearLines_pending (s : State) (k : EbuKey) : (s.clearLines k).pending = s.pending := rfl
@[simp] theorem State.clearLines_ebuDone (s : State) (k : EbuKey) : (s.clearLines k).ebuDone = s.ebuDone := rfl
@[simp] theorem State.clearLines_ctx (s : State) (k : EbuKey) : (s.clearLines k).ctx = s.ctx := rfl
@[simp] theorem State.clearLines_carry (s : State) (k : EbuKey) : (s.clearLines k).carry = s.carry := rfl
@[simp] theorem State.clearLines_pat (s : State) (k : EbuKey) : (s.clearLines k).pat = s.pat := rfl
@[simp] theorem State.clearLines_pmt (s : State) (k : EbuKey) : (s.clearLines k).pmt = s.pmt := rfl
@[simp] theorem State.clearLines_nit (s : State) (k : EbuKey) : (s.clearLines k).nit = s.nit := rfl
@[simp] theorem State.clearLines_sdt (s : State) (k : EbuKey) : (s.clearLines k).sdt = s.sdt := rfl
@[simp] theorem State.clearLines_eit (s : State) (k : EbuKey) : (s.clearLines k).eit = s.eit := rfl
@[simp] theorem State.clearLines_tdt (s : State) (k : EbuKey) : (s.clearLines k).tdt = s.tdt := rfl
@[simp] theorem State.clearLines_ait (s : State) (k : EbuKey) : (s.clearLines k).ait = s.ait := rfl
@[simp] theorem State.clearLines_dsmcc (s : State) (k : EbuKey) : (s.clearLines k).dsmcc = s.dsmcc := rfl
@[simp] theorem State.clearLines_ebu (s : State) (k : EbuKey) : (s.clearLines k).ebu = SMap.set {} (keyIndex k) { s.pageOf k with lines := [] } s.ebu := rfl
@[simp] theorem State.clearLines_hdr (s : State) (k : EbuKey) : (s.clearLines k).hdr = s.hdr := rfl
@[simp] theorem State.clearLines_pc (s : State) (k : EbuKey) : (s.clearLines k).pc = s.pc := rfl
@[simp] theorem State.clearLines_batchErr (s : State) (k : EbuKey) : (s.clearLines k).batchErr = s.batchErr := rfl
@[simp] theorem State.clearLines_stream (s : State) (k : EbuKey) : (s.clearLines k).stream = s.stream := rfl
@[simp] theorem State.clearLines_work (s : State) (k : EbuKey) : (s.clearLines k).work = s.work := rfl
@[simp] theorem State.clearLines_dlist (s : State) (k : EbuKey) : (s.clearLines k).dlist = s.dlist := rfl
@[simp] theorem State.clearLines_host (s : State) (k : EbuKey) : (s.clearLines k).host = s.host := rfl
@[simp] theorem State.clearLines_out (s : State) (k : EbuKey) : (s.clearLines k).out = s.out := rfl

/-! ### `State.cleared` -/

@[simp] theorem State.cleared_cfg (s : State) : (s.cleared).cfg = s.cfg := rfl
@[simp] theorem State.cleared_bind (s : State) : (s.cleared).bind = s.bind := rfl
@[simp] theorem State.cleared_cbEn (s : State) : (s.cleared).cbEn = s.cbEn := rfl
@[simp] theorem State.cleared_packets (s : State) : (s.cleared).packets = 0 := rfl
@[simp] theorem State.cleared_errors (s : State) : (s.cleared).errors = 0 := rfl
@[simp] theorem State.cleared_pcr (s : State) : (s.cleared).pcr = {} := rfl
@[simp] theorem State.cleared_phase (s : State) : (s.cleared).phase = .ready := rfl
@[simp] theorem State.cleared_pending (s : State) : (s.cleared).pending = s.pending := rfl
@[simp] theorem State.cleared_ebuDone (s : State) : (s.cleared).ebuDone = s.ebuDone := rfl
@[simp] theorem State.cleared_ctx (s : State) : (s.cleared).ctx = [] := rfl
@[simp] theorem State.cleared_carry (s : State) : (s.cleared).carry = [] := rfl
@[simp] theorem State.cleared_pat (s : State) : (s.cleared).pat = {} := rfl
@[simp] theorem State.cleared_pmt (s : State) : (s.cleared).pmt = {} := rfl
@[simp] theorem State.cleared_nit (s : State) : (s.cleared).nit = {} := rfl
@[simp] theorem State.cleared_sdt (s : State) : (s.cleared).sdt = {} := rfl
@[simp] theorem State.cleared_eit (s : State) : (s.cleared).eit = {} := rfl
@[simp] theorem State.cleared_tdt (s : State) : (s.cleared).tdt = {} := rfl
@[simp] theorem State.cleared_ait (s : State) : (s.cleared).ait = {} := rfl
@[simp] theorem State.cleared_dsmcc (s : State) : (s.cleared).dsmcc = {} := rfl
@[simp] theorem State.cleared_ebu (s : State) : (s.cleared).ebu = [] := rfl
@[simp] theorem State.cleared_hdr (s : State) : (s.cleared).hdr = s.hdr := rfl
@[simp] theorem State.cleared_pc (s : State) : (s.cleared).pc = s.pc := rfl
@[simp] theorem State.cleared_batchErr (s : State) : (s.cleared).batchErr = s.batchErr := rfl
@[simp] theorem State.cleared_stream (s : State) : (s.cleared).stream = s.stream := rfl
@[simp] theorem State.cleared_work (s : State) : (s.cleared).work = s.work := rfl
@[simp] theorem State.cleared_dlist (s : State) : (s.cleared).dlist = s.dlist := rfl
@[simp] theorem State.cleared_host (s : State) : (s.cleared).host = s.host := rfl
@[simp] theorem State.cleared_out (s : State) : (s.cleared).out = s.out := rfl

/-! ### `State.powerOn` -/

@[simp] theorem State.powerOn_cfg (s : State) : (s.powerOn).cfg = s.cfg := rfl
@[simp] theorem State.powerOn_bind (s : State) : (s.powerOn).bind = State.reset.bind := rfl
@[simp] theorem State.powerOn_cbEn (s : State) : (s.powerOn).cbEn = State.reset.cbEn := rfl
@[simp] theorem State.powerOn_packets (s : State) : (s.powerOn).packets = State.reset.packets := rfl
@[simp] theorem State.powerOn_errors (s : State) : (s.powerOn).errors = State.reset.errors := rfl
@[simp] theorem State.powerOn_pcr (s : State) : (s.powerOn).pcr = State.reset.pcr := rfl
@[simp] theorem State.powerOn_phase (s : State) : (s.powerOn).phase = State.reset.phase := rfl
@[simp] theorem State.powerOn_pending (s : State) : (s.powerOn).pending = State.reset.pending := rfl
@[simp] theorem State.powerOn_ebuDone (s : State) : (s.powerOn).ebuDone = State.reset.ebuDone := rfl
@[simp] theorem State.powerOn_ctx (s : State) : (s.powerOn).ctx = State.reset.ctx := rfl
@[simp] theorem State.powerOn_carry (s : State) : (s.powerOn).carry = State.reset.carry := rfl
@[simp] theorem State.powerOn_pat (s : State) : (s.powerOn).pat = State.reset.pat := rfl
@[simp] theorem State.powerOn_pmt (s : State) : (s.powerOn).pmt = State.reset.pmt := rfl
@[simp] theorem State.powerOn_nit (s : State) : (s.powerOn).nit = State.reset.nit := rfl
@[simp] theorem State.powerOn_sdt (s : State) : (s.powerOn).sdt = State.reset.sdt := rfl
@[simp] theorem State.powerOn_eit (s : State) : (s.powerOn).eit = State.reset.eit := rfl
@[simp] theorem State.powerOn_tdt (s : State) : (s.powerOn).tdt = State.reset.tdt := rfl
@[simp] theorem State.powerOn_ait (s : State) : (s.powerOn).ait = State.reset.ait := rfl
@[simp] theorem State.powerOn_dsmcc (s : State) : (s.powerOn).dsmcc = State.reset.dsmcc := rfl
@[simp] theorem State.powerOn_ebu (s : State) : (s.powerOn).ebu = State.reset.ebu := rfl
@[simp] theorem State.powerOn_hdr (s : State) : (s.powerOn).hdr = State.reset.hdr := rfl
@[simp] theorem State.powerOn_pc (s : State) : (s.powerOn).pc = State.reset.pc := rfl
@[simp] theorem State.powerOn_batchErr (s : State) : (s.powerOn).batchErr = State.reset.batchErr := rfl
@[simp] theorem State.powerOn_stream (s : State) : (s.powerOn).stream = State.reset.stream := rfl
@[simp] theorem State.powerOn_work (s : State) : (s.powerOn).work = State.reset.work := rfl
@[simp] theorem State.powerOn_dlist (s : State) : (s.powerOn).dlist = State.reset.dlist := rfl
@[simp] theorem State.powerOn_host (s : State) : (s.powerOn).host = s.host := rfl
@[simp] theorem State.powerOn_out (s : State) : (s.powerOn).out = s.out := rfl

/-! ### `State.takePacket` -/

@[simp] theorem State.takePacket_cfg (s : State) (afc : BitVec 2) (h : PktHead) (rest : Bytes) : (s.takePacket afc h rest).cfg = s.cfg := rfl
@[simp] theorem State.takePacket_bind (s : State) (afc : BitVec 2) (h : PktHead) (rest : Bytes) : (s.takePacket afc h rest).bind = s.bind := rfl
@[simp] theorem State.takePacket_cbEn (s : State) (afc : BitVec 2) (h : PktHead) (rest : Bytes) : (s.takePacket afc h rest).cbEn = s.cbEn := rfl
@[simp] theorem State.takePacket_packets (s : State) (afc : BitVec 2) (h : PktHead) (rest : Bytes) : (s.takePacket afc h rest).packets = satInc s.cfg s.packets := rfl
@[simp] theorem State.takePacket_errors (s : State) (afc : BitVec 2) (h : PktHead) (rest : Bytes) : (s.takePacket afc h rest).errors = s.errors := rfl
@[simp] theorem State.takePacket_pcr (s : State) (afc : BitVec 2) (h : PktHead) (rest : Bytes) : (s.takePacket afc h rest).pcr = s.pcr := rfl
@[simp] theorem State.takePacket_phase (s : State) (afc : BitVec 2) (h : PktHead) (rest : Bytes) : (s.takePacket afc h rest).phase = s.phase := rfl
@[simp] theorem State.takePacket_pending (s : State) (afc : BitVec 2) (h : PktHead) (rest : Bytes) : (s.takePacket afc h rest).pending = s.pending := rfl
@[simp] theorem State.takePacket_ebuDone (s : State) (afc : BitVec 2) (h : PktHead) (rest : Bytes) : (s.takePacket afc h rest).ebuDone = s.ebuDone := rfl
@[simp] theorem State.takePacket_ctx (s : State) (afc : BitVec 2) (h : PktHead) (rest : Bytes) : (s.takePacket afc h rest).ctx = s.ctx := rfl
@[simp] theorem State.takePacket_carry (s : State) (afc : BitVec 2) (h : PktHead) (rest : Bytes) : (s.takePacket afc h rest).carry = s.carry := rfl
@[simp] theorem State.takePacket_pat (s : State) (afc : BitVec 2) (h : PktHead) (rest : Bytes) : (s.takePacket afc h rest).pat = s.pat := rfl
@[simp] theorem State.takePacket_pmt (s : State) (afc : BitVec 2) (h : PktHead) (rest : Bytes) : (s.takePacket afc h rest).pmt = s.pmt := rfl
@[simp] theorem State.takePacket_nit (s : State) (afc : BitVec 2) (h : PktHead) (rest : Bytes) : (s.takePacket afc h rest).nit = s.nit := rfl
@[simp] theorem State.takePacket_sdt (s : State) (afc : BitVec 2) (h : PktHead) (rest : Bytes) : (s.takePacket afc h rest).sdt = s.sdt := rfl
@[simp] theorem State.takePacket_eit (s : State) (afc : BitVec 2) (h : PktHead) (rest : Bytes) : (s.takePacket afc h rest).eit = s.eit := rfl
@[simp] theorem State.takePacket_tdt (s : State) (afc : BitVec 2) (h : PktHead) (rest : Bytes) : (s.takePacket afc h rest).tdt = s.tdt := rfl
@[simp] theorem State.takePacket_ait (s : State) (afc : BitVec 2) (h : PktHead) (rest : Bytes) : (s.takePacket afc h rest).ait = s.ait := rfl
@[simp] theorem State.takePacket_dsmcc (s : State) (afc : BitVec 2) (h : PktHead) (rest : Bytes) : (s.takePacket afc h rest).dsmcc = s.dsmcc := rfl
@[simp] theorem State.takePacket_ebu (s : State) (afc : BitVec 2) (h : PktHead) (rest : Bytes) : (s.takePacket afc h rest).ebu = s.ebu := rfl
@[simp] theorem State.takePacket_hdr (s : State) (afc : BitVec 2) (h : PktHead) (rest : Bytes) : (s.takePacket afc h rest).hdr = latch afc h rest := rfl
@[simp] theorem State.takePacket_pc (s : State) (afc : BitVec 2) (h : PktHead) (rest : Bytes) : (s.takePacket afc h rest).pc = s.pc := rfl
@[simp] theorem State.takePacket_batchErr (s : State) (afc : BitVec 2) (h : PktHead) (rest : Bytes) : (s.takePacket afc h rest).batchErr = s.batchErr := rfl
@[simp] theorem State.takePacket_stream (s : State) (afc : BitVec 2) (h : PktHead) (rest : Bytes) : (s.takePacket afc h rest).stream = s.stream := rfl
@[simp] theorem State.takePacket_work (s : State) (afc : BitVec 2) (h : PktHead) (rest : Bytes) : (s.takePacket afc h rest).work = s.work := rfl
@[simp] theorem State.takePacket_dlist (s : State) (afc : BitVec 2) (h : PktHead) (rest : Bytes) : (s.takePacket afc h rest).dlist = s.dlist := rfl
@[simp] theorem State.takePacket_host (s : State) (afc : BitVec 2) (h : PktHead) (rest : Bytes) : (s.takePacket afc h rest).host = s.host := rfl
@[simp] theorem State.takePacket_out (s : State) (afc : BitVec 2) (h : PktHead) (rest : Bytes) : (s.takePacket afc h rest).out = s.out := rfl

/-! ### `State.ticked` -/

@[simp] theorem State.ticked_cfg (s : State) : (s.ticked).cfg = s.cfg := rfl
@[simp] theorem State.ticked_bind (s : State) : (s.ticked).bind = s.bind := rfl
@[simp] theorem State.ticked_cbEn (s : State) : (s.ticked).cbEn = s.cbEn := rfl
@[simp] theorem State.ticked_packets (s : State) : (s.ticked).packets = s.packets := rfl
@[simp] theorem State.ticked_errors (s : State) : (s.ticked).errors = s.errors := rfl
@[simp] theorem State.ticked_pcr (s : State) : (s.ticked).pcr = s.pcr := rfl
@[simp] theorem State.ticked_phase (s : State) : (s.ticked).phase = s.phase := rfl
@[simp] theorem State.ticked_pending (s : State) : (s.ticked).pending = s.pending := rfl
@[simp] theorem State.ticked_ebuDone (s : State) : (s.ticked).ebuDone = s.ebuDone := rfl
@[simp] theorem State.ticked_ctx (s : State) : (s.ticked).ctx = s.ctx := rfl
@[simp] theorem State.ticked_carry (s : State) : (s.ticked).carry = s.carry := rfl
@[simp] theorem State.ticked_pat (s : State) : (s.ticked).pat = s.pat := rfl
@[simp] theorem State.ticked_pmt (s : State) : (s.ticked).pmt = s.pmt := rfl
@[simp] theorem State.ticked_nit (s : State) : (s.ticked).nit = s.nit := rfl
@[simp] theorem State.ticked_sdt (s : State) : (s.ticked).sdt = s.sdt := rfl
@[simp] theorem State.ticked_eit (s : State) : (s.ticked).eit = s.eit := rfl
@[simp] theorem State.ticked_tdt (s : State) : (s.ticked).tdt = s.tdt := rfl
@[simp] theorem State.ticked_ait (s : State) : (s.ticked).ait = s.ait := rfl
@[simp] theorem State.ticked_dsmcc (s : State) : (s.ticked).dsmcc = s.dsmcc := rfl
@[simp] theorem State.ticked_ebu (s : State) : (s.ticked).ebu = s.ebu := rfl
@[simp] theorem State.ticked_hdr (s : State) : (s.ticked).hdr = s.hdr := rfl
@[simp] theorem State.ticked_pc (s : State) : (s.ticked).pc = s.pc := rfl
@[simp] theorem State.ticked_batchErr (s : State) : (s.ticked).batchErr = s.batchErr := rfl
@[simp] theorem State.ticked_stream (s : State) : (s.ticked).stream = s.stream := rfl
@[simp] theorem State.ticked_work (s : State) : (s.ticked).work = s.work := rfl
@[simp] theorem State.ticked_dlist (s : State) : (s.ticked).dlist = s.dlist := rfl
@[simp] theorem State.ticked_host (s : State) : (s.ticked).host = tickHost s.host := rfl
@[simp] theorem State.ticked_out (s : State) : (s.ticked).out = s.out := rfl

/-! ### `State.endBatch` -/

@[simp] theorem State.endBatch_cfg (s : State) : (s.endBatch).cfg = s.cfg := rfl
@[simp] theorem State.endBatch_bind (s : State) : (s.endBatch).bind = s.bind := rfl
@[simp] theorem State.endBatch_cbEn (s : State) : (s.endBatch).cbEn = s.cbEn := rfl
@[simp] theorem State.endBatch_packets (s : State) : (s.endBatch).packets = s.packets := rfl
@[simp] theorem State.endBatch_errors (s : State) : (s.endBatch).errors = s.errors := rfl
@[simp] theorem State.endBatch_pcr (s : State) : (s.endBatch).pcr = s.pcr := rfl
@[simp] theorem State.endBatch_phase (s : State) : (s.endBatch).phase = .ready := rfl
@[simp] theorem State.endBatch_pending (s : State) : (s.endBatch).pending = s.pending := rfl
@[simp] theorem State.endBatch_ebuDone (s : State) : (s.endBatch).ebuDone = s.ebuDone := rfl
@[simp] theorem State.endBatch_ctx (s : State) : (s.endBatch).ctx = s.ctx := rfl
@[simp] theorem State.endBatch_carry (s : State) : (s.endBatch).carry = s.carry := rfl
@[simp] theorem State.endBatch_pat (s : State) : (s.endBatch).pat = s.pat := rfl
@[simp] theorem State.endBatch_pmt (s : State) : (s.endBatch).pmt = s.pmt := rfl
@[simp] theorem State.endBatch_nit (s : State) : (s.endBatch).nit = s.nit := rfl
@[simp] theorem State.endBatch_sdt (s : State) : (s.endBatch).sdt = s.sdt := rfl
@[simp] theorem State.endBatch_eit (s : State) : (s.endBatch).eit = s.eit := rfl
@[simp] theorem State.endBatch_tdt (s : State) : (s.endBatch).tdt = s.tdt := rfl
@[simp] theorem State.endBatch_ait (s : State) : (s.endBatch).ait = s.ait := rfl
@[simp] theorem State.endBatch_dsmcc (s : State) : (s.endBatch).dsmcc = s.dsmcc := rfl
@[simp] theorem State.endBatch_ebu (s : State) : (s.endBatch).ebu = s.ebu := rfl
@[simp] theorem State.endBatch_hdr (s : State) : (s.endBatch).hdr = s.hdr := rfl
@[simp] theorem State.endBatch_pc (s : State) : (s.endBatch).pc = 0 := rfl
@[simp] theorem State.endBatch_batchErr (s : State) : (s.endBatch).batchErr = s.batchErr := rfl
@[simp] theorem State.endBatch_stream (s : State) : (s.endBatch).stream = [] := rfl
@[simp] theorem State.endBatch_work (s : State) : (s.endBatch).work = s.work := rfl
@[simp] theorem State.endBatch_dlist (s : State) : (s.endBatch).dlist = s.dlist := rfl
@[simp] theorem State.endBatch_host (s : State) : (s.endBatch).host = s.host := rfl
@[simp] theorem State.endBatch_out (s : State) : (s.endBatch).out = s.out ++ [.batchDone s.batchOk] := rfl

/-! ### `State.notify`: `phase`, `pending` and `out` alone -/

@[simp] theorem State.notify_cfg (s : State) (u : UnitId) : (s.notify u).cfg = s.cfg := by
  unfold State.notify; split <;> rfl
@[simp] theorem State.notify_bind (s : State) (u : UnitId) : (s.notify u).bind = s.bind := by
  unfold State.notify; split <;> rfl
@[simp] theorem State.notify_cbEn (s : State) (u : UnitId) : (s.notify u).cbEn = s.cbEn := by
  unfold State.notify; split <;> rfl
@[simp] theorem State.notify_packets (s : State) (u : UnitId) : (s.notify u).packets = s.packets := by
  unfold State.notify; split <;> rfl
@[simp] theorem State.notify_errors (s : State) (u : UnitId) : (s.notify u).errors = s.errors := by
  unfold State.notify; split <;> rfl
@[simp] theorem State.notify_pcr (s : State) (u : UnitId) : (s.notify u).pcr = s.pcr := by
  unfold State.notify; split <;> rfl
@[simp] theorem State.notify_ebuDone (s : State) (u : UnitId) : (s.notify u).ebuDone = s.ebuDone := by
  unfold State.notify; split <;> rfl
@[simp] theorem State.notify_ctx (s : State) (u : UnitId) : (s.notify u).ctx = s.ctx := by
  unfold State.notify; split <;> rfl
@[simp] theorem State.notify_carry (s : State) (u : UnitId) : (s.notify u).carry = s.carry := by
  unfold State.notify; split <;> rfl
@[simp] theorem State.notify_pat (s : State) (u : UnitId) : (s.notify u).pat = s.pat := by
  unfold State.notify; split <;> rfl
@[simp] theorem State.notify_pmt (s : State) (u : UnitId) : (s.notify u).pmt = s.pmt := by
  unfold State.notify; split <;> rfl
@[simp] theorem State.notify_nit (s : State) (u : UnitId) : (s.notify u).nit = s.nit := by
  unfold State.notify; split <;> rfl
@[simp] theorem State.notify_sdt (s : State) (u : UnitId) : (s.notify u).sdt = s.sdt := by
  unfold State.notify; split <;> rfl
@[simp] theorem State.notify_eit (s : State) (u : UnitId) : (s.notify u).eit = s.eit := by
  unfold State.notify; split <;> rfl
@[simp] theorem State.notify_tdt (s : State) (u : UnitId) : (s.notify u).tdt = s.tdt := by
  unfold State.notify; split <;> rfl
@[simp] theorem State.notify_ait (s : State) (u : UnitId) : (s.notify u).ait = s.ait := by
  unfold State.notify; split <;> rfl
@[simp] theorem State.notify_dsmcc (s : State) (u : UnitId) : (s.notify u).dsmcc = s.dsmcc := by
  unfold State.notify; split <;> rfl
@[simp] theorem State.notify_ebu (s : State) (u : UnitId) : (s.notify u).ebu = s.ebu := by
  unfold State.notify; split <;> rfl
@[simp] theorem State.notify_hdr (s : State) (u : UnitId) : (s.notify u).hdr = s.hdr := by
  unfold State.notify; split <;> rfl
@[simp] theorem State.notify_pc (s : State) (u : UnitId) : (s.notify u).pc = s.pc := by
  unfold State.notify; split <;> rfl
@[simp] theorem State.notify_batchErr (s : State) (u : UnitId) : (s.notify u).batchErr = s.batchErr := by
  unfold State.notify; split <;> rfl
@[simp] theorem State.notify_stream (s : State) (u : UnitId) : (s.notify u).stream = s.stream := by
  unfold State.notify; split <;> rfl
@[simp] theorem State.notify_work (s : State) (u : UnitId) : (s.notify u).work = s.work := by
  unfold State.notify; split <;> rfl
@[simp] theorem State.notify_dlist (s : State) (u : UnitId) : (s.notify u).dlist = s.dlist := by
  unfold State.notify; split <;> rfl
@[simp] theorem State.notify_host (s : State) (u : UnitId) : (s.notify u).host = s.host := by
  unfold State.notify; split <;> rfl

end Sys2Proof.Machine
end

