-- ==== Sys2Proof/Laws/Memory.lean ====
section
/-! SUPPORT. The laws of the sparse stores (assumption log 13): a read after a write, the canonical form,
and that every operation over contexts and pages keeps it. -/

namespace Sys2Proof.Machine

variable {α : Type} [DecidableEq α]

/-! ## Reads after writes -/

omit [DecidableEq α] in
/-- A key below every listed key is not listed. -/
theorem SMap.get_of_lt (d : α) (k : Nat) (l : List (Nat × α)) (h : ∀ e ∈ l, k < e.1) : SMap.get d k l = d := by
  induction l with
  | nil => rfl
  | cons e l ih =>
    obtain ⟨j, x⟩ := e
    have hj : k < j := h (j, x) (by simp)
    simp only [SMap.get, if_neg (show ¬ j = k by omega)]
    exact ih fun e he => h e (by simp [he])

/-- The canonical form, taken apart at the head. -/
theorem SMap.wf_cons (d : α) (j : Nat) (x : α) (l : List (Nat × α)) :
    SMap.wf d ((j, x) :: l) = true ↔ x ≠ d ∧ (∀ e ∈ l, j < e.1) ∧ SMap.wf d l = true := by
  simp [SMap.wf, Bool.and_eq_true, and_assoc]

/-- Writing and reading one key. -/
theorem SMap.get_set_same (d : α) (k : Nat) (v : α) (l : List (Nat × α)) (h : SMap.wf d l = true) :
    SMap.get d k (SMap.set d k v l) = v := by
  induction l with
  | nil => by_cases hv : v = d <;> simp [SMap.set, SMap.get, hv]
  | cons e l ih =>
    obtain ⟨j, x⟩ := e
    obtain ⟨hx, hl, hw⟩ := (SMap.wf_cons d j x l).1 h
    unfold SMap.set
    by_cases h1 : k < j
    · by_cases hv : v = d
      · simp only [h1, hv, if_true]
        exact SMap.get_of_lt d k _ fun e he => by
          rcases List.mem_cons.1 he with rfl | he
          · exact h1
          · exact lt_trans h1 (hl e he)
      · simp [h1, hv, SMap.get]
    · by_cases h2 : k = j
      · subst h2
        by_cases hv : v = d
        · simp only [hv, lt_irrefl, if_false, if_true]
          exact SMap.get_of_lt d k l hl
        · simp [hv, SMap.get]
      · simp only [h1, h2, if_false, SMap.get, if_neg (Ne.symm h2)]
        exact ih hw

/-- Writing one key leaves every other key. -/
theorem SMap.get_set_other (d : α) (k m : Nat) (v : α) (l : List (Nat × α)) (hm : m ≠ k) (h : SMap.wf d l = true) :
    SMap.get d m (SMap.set d k v l) = SMap.get d m l := by
  induction l with
  | nil =>
    by_cases hv : v = d
    · simp [SMap.set, hv]
    · simp [SMap.set, SMap.get, hv, Ne.symm hm]
  | cons e l ih =>
    obtain ⟨j, x⟩ := e
    obtain ⟨hx, hl, hw⟩ := (SMap.wf_cons d j x l).1 h
    unfold SMap.set
    by_cases h1 : k < j
    · by_cases hv : v = d <;> simp [h1, hv, SMap.get, Ne.symm hm]
    · by_cases h2 : k = j
      · subst h2
        by_cases hv : v = d <;> simp [hv, SMap.get, Ne.symm hm]
      · simp only [h1, h2, if_false, SMap.get]
        by_cases h3 : j = m
        · simp [h3]
        · simp only [h3, if_false]
          exact ih hw

/-! ## The canonical form is kept -/

/-- The keys of a store after a write are the old ones and the key written. -/
theorem SMap.mem_set (d : α) (k : Nat) (v : α) (l : List (Nat × α)) (e : Nat × α) (he : e ∈ SMap.set d k v l) :
    e ∈ l ∨ e = (k, v) := by
  induction l with
  | nil =>
    by_cases hv : v = d
    · simp [SMap.set, hv] at he
    · simp [SMap.set, hv] at he; exact .inr he
  | cons a l ih =>
    obtain ⟨j, x⟩ := a
    unfold SMap.set at he
    split_ifs at he with h1 hv h2 hv
    · exact .inl he
    · rcases List.mem_cons.1 he with h | h
      · exact .inr h
      · exact .inl h
    · exact .inl (List.mem_cons_of_mem _ he)
    · rcases List.mem_cons.1 he with h | h
      · exact .inr h
      · exact .inl (List.mem_cons_of_mem _ h)
    · rcases List.mem_cons.1 he with h | h
      · exact .inl (by simp [h])
      · rcases ih h with h | h
        · exact .inl (List.mem_cons_of_mem _ h)
        · exact .inr h

theorem SMap.wf_set (d : α) (k : Nat) (v : α) (l : List (Nat × α)) (h : SMap.wf d l = true) :
    SMap.wf d (SMap.set d k v l) = true := by
  induction l with
  | nil => by_cases hv : v = d <;> simp [SMap.set, SMap.wf, hv]
  | cons e l ih =>
    obtain ⟨j, x⟩ := e
    obtain ⟨hx, hl, hw⟩ := (SMap.wf_cons d j x l).1 h
    unfold SMap.set
    split_ifs with h1 hv h2 hv
    · exact h
    · refine (SMap.wf_cons d k v _).2 ⟨hv, fun e he => ?_, h⟩
      rcases List.mem_cons.1 he with rfl | he
      · exact h1
      · exact lt_trans h1 (hl e he)
    · exact hw
    · exact (SMap.wf_cons d k v _).2 ⟨hv, fun e he => h2 ▸ hl e he, hw⟩
    · refine (SMap.wf_cons d j x _).2 ⟨hx, fun e he => ?_, ih hw⟩
      rcases SMap.mem_set d k v l e he with h' | rfl
      · exact hl e h'
      · show j < k
        omega

theorem SMap.below_set (n : Nat) (d : α) (k : Nat) (v : α) (l : List (Nat × α)) (hk : k < n)
    (h : SMap.below n l = true) : SMap.below n (SMap.set d k v l) = true := by
  simp only [SMap.below, List.all_eq_true, decide_eq_true_eq] at h ⊢
  intro e he
  rcases SMap.mem_set d k v l e he with h' | rfl
  · exact h e h'
  · exact hk

/-- Two canonical stores that read alike everywhere are equal. -/
theorem SMap.ext (d : α) (l m : List (Nat × α)) (hl : SMap.wf d l = true) (hm : SMap.wf d m = true)
    (h : ∀ k, SMap.get d k l = SMap.get d k m) : l = m := by
  induction l generalizing m with
  | nil =>
    cases m with
    | nil => rfl
    | cons e m =>
      obtain ⟨j, x⟩ := e
      have := h j
      simp [SMap.get] at this
      exact absurd this.symm ((SMap.wf_cons d j x m).1 hm).1
  | cons e l ih =>
    obtain ⟨j, x⟩ := e
    obtain ⟨hx, hlt, hw⟩ := (SMap.wf_cons d j x l).1 hl
    cases m with
    | nil =>
      have := h j
      simp [SMap.get] at this
      exact absurd this hx
    | cons e m =>
      obtain ⟨i, y⟩ := e
      obtain ⟨hy, hmt, hv⟩ := (SMap.wf_cons d i y m).1 hm
      have hij : j = i := by
        rcases lt_trichotomy j i with hlt' | heq | hgt
        · have := h j
          rw [SMap.get_of_lt d j ((i, y) :: m)] at this
          · simp [SMap.get] at this; exact absurd this hx
          · intro e he
            rcases List.mem_cons.1 he with rfl | he
            · exact hlt'
            · exact lt_trans hlt' (hmt e he)
        · exact heq
        · have := h i
          rw [SMap.get_of_lt d i ((j, x) :: l)] at this
          · simp [SMap.get] at this; exact absurd this.symm hy
          · intro e he
            rcases List.mem_cons.1 he with rfl | he
            · exact hgt
            · exact lt_trans hgt (hlt e he)
      subst hij
      have hxy : x = y := by have := h j; simpa [SMap.get] using this
      subst hxy
      congr 1
      refine ih m hw hv fun k => ?_
      by_cases hk : j = k
      · subst hk
        rw [SMap.get_of_lt d j l hlt, SMap.get_of_lt d j m hmt]
      · have := h k
        simpa [SMap.get, hk] using this

/-! ## Contexts and pages -/

/-- The canonical form of the four parts of the stores. -/
theorem Memory.wf_iff (s : State) : Memory.wf s = true ↔
    SMap.wf {} s.ctx = true ∧ SMap.below 8192 s.ctx = true ∧ SMap.wf {} s.ebu = true ∧ SMap.below (2 ^ 28) s.ebu = true := by
  simp [Memory.wf, Bool.and_eq_true, and_assoc]

theorem ctxOf_setCtx_same (s : State) (p : Pid) (c : Ctx) (h : Memory.wf s = true) : (s.setCtx p c).ctxOf p = c :=
  SMap.get_set_same _ _ _ _ ((Memory.wf_iff s).1 h).1

theorem ctxOf_setCtx_other (s : State) (p q : Pid) (c : Ctx) (hq : q ≠ p) (h : Memory.wf s = true) :
    (s.setCtx p c).ctxOf q = s.ctxOf q :=
  SMap.get_set_other _ _ _ _ _ (fun e => hq (BitVec.eq_of_toNat_eq e)) ((Memory.wf_iff s).1 h).1

/-- A key's number determines the key. -/
theorem keyOfIndex_keyIndex (k : EbuKey) : keyOfIndex (keyIndex k) = k := by
  obtain ⟨m, p, sp⟩ := k
  simp only [keyOfIndex, keyIndex, BitVec.ofNat_toNat, EbuKey.mk.injEq]
  refine ⟨?_, ?_, ?_⟩ <;> apply BitVec.eq_of_getLsbD_eq <;> intro i hi <;>
    simp only [BitVec.getLsbD_extractLsb', BitVec.getLsbD_setWidth, BitVec.getLsbD_append, hi, decide_true, Bool.true_and]
  · rw [if_neg (by omega), if_neg (by omega), show 24 + i - 16 - 8 = i by omega]
    simp; omega
  · rw [if_neg (by omega), if_pos (by omega), show 16 + i - 16 = i by omega]
    simp; omega
  · rw [if_pos (by omega), show 0 + i = i by omega]
    simp; omega

theorem keyIndex_injective {k l : EbuKey} (h : keyIndex k = keyIndex l) : k = l := by
  rw [← keyOfIndex_keyIndex k, h, keyOfIndex_keyIndex]

theorem keyIndex_lt (k : EbuKey) : keyIndex k < 2 ^ 28 := (k.magazine ++ k.page ++ k.subpage).isLt

theorem pageOf_setPage_same (s : State) (k : EbuKey) (pg : EbuPage) (h : Memory.wf s = true) :
    (s.setPage k pg).pageOf k = pg :=
  SMap.get_set_same _ _ _ _ ((Memory.wf_iff s).1 h).2.2.1

theorem pageOf_setPage_other (s : State) (k l : EbuKey) (pg : EbuPage) (hl : l ≠ k) (h : Memory.wf s = true) :
    (s.setPage k pg).pageOf l = s.pageOf l :=
  SMap.get_set_other _ _ _ _ _ (fun e => hl (keyIndex_injective e)) ((Memory.wf_iff s).1 h).2.2.1

theorem Memory.wf_setCtx (s : State) (p : Pid) (c : Ctx) (h : Memory.wf s = true) : Memory.wf (s.setCtx p c) = true := by
  obtain ⟨h1, h2, h3, h4⟩ := (Memory.wf_iff s).1 h
  exact (Memory.wf_iff _).2 ⟨SMap.wf_set _ _ _ _ h1, SMap.below_set _ _ _ _ _ p.isLt h2, h3, h4⟩

theorem Memory.wf_setPage (s : State) (k : EbuKey) (pg : EbuPage) (h : Memory.wf s = true) :
    Memory.wf (s.setPage k pg) = true := by
  obtain ⟨h1, h2, h3, h4⟩ := (Memory.wf_iff s).1 h
  exact (Memory.wf_iff _).2 ⟨h1, h2, SMap.wf_set _ _ _ _ h3, SMap.below_set _ _ _ _ _ (keyIndex_lt k) h4⟩

/-- The canonical form depends on the two stores alone. -/
theorem Memory.wf_congr {s t : State} (hc : t.ctx = s.ctx) (he : t.ebu = s.ebu) : Memory.wf t = Memory.wf s := by
  simp [Memory.wf, hc, he]

theorem Memory.wf_clearLines (s : State) (k : EbuKey) (h : Memory.wf s = true) : Memory.wf (s.clearLines k) = true :=
  Memory.wf_setPage s k _ h

theorem Memory.wf_raise (s : State) (c : ErrCode) : Memory.wf (s.raise c) = Memory.wf s := rfl

theorem Memory.wf_push (s : State) (w : List Work) : Memory.wf (s.push w) = Memory.wf s := rfl

theorem Memory.wf_respond (s : State) (r : Response) : Memory.wf (s.respond r) = Memory.wf s := rfl

theorem Memory.wf_addDescriptor (s : State) (d : Descriptor) : Memory.wf (s.addDescriptor d) = Memory.wf s := rfl

theorem Memory.wf_notify (s : State) (u : UnitId) : Memory.wf (s.notify u) = Memory.wf s :=
  Memory.wf_congr (by simp) (by simp)

theorem Memory.wf_restart (s : State) (p : Pid) (new : Bytes) (h : Memory.wf s = true) :
    Memory.wf (s.restart p new) = true := by
  unfold State.restart
  split
  · exact Memory.wf_setCtx _ _ _ h
  · exact Memory.wf_setCtx _ _ _ h

theorem Memory.wf_acknowledge (s : State) (h : Memory.wf s = true) : Memory.wf s.acknowledge = true := by
  unfold State.acknowledge
  split
  · exact Memory.wf_setPage s _ _ h
  · exact h

theorem Memory.wf_cleared (s : State) : Memory.wf s.cleared = true := by
  simp [Memory.wf, SMap.wf, SMap.below]

theorem Memory.wf_powerOn (s : State) : Memory.wf s.powerOn = true := by
  simp [Memory.wf, SMap.wf, SMap.below, State.reset]

theorem Memory.wf_reset : Memory.wf State.reset = true := by decide

end Sys2Proof.Machine
end

