-- ==== Sys2Proof/Laws/Ops.lean ====
section
/-! SUPPORT. For each shared operation, one lemma that says everything it can do. -/

namespace Sys2Proof.Machine

/-! ## Answers -/

/-- A command legal in `READY` only: its effect there, refused elsewhere. -/
theorem inReady_cases {s t u : State} (h : inReady s t = .next u) :
    (s.phase = .ready ∧ u = t) ∨ (s.phase ≠ .ready ∧ u = s.respond .refused) := by
  unfold inReady at h
  split at h
  · next hp => exact .inl ⟨hp, by injection h with h; exact h.symm⟩
  · next hp => exact .inr ⟨hp, by injection h with h; exact h.symm⟩

/-- A read: a response and nothing else. -/
theorem readCmd_cases {s u : State} {r : Response} (h : readCmd s r = .next u) :
    (s.phase ≠ .inBatch ∧ u = s.respond r) ∨ (s.phase = .inBatch ∧ u = s.respond .refused) := by
  unfold readCmd at h
  injection h with h
  subst h
  by_cases hp : s.phase = .inBatch
  · exact .inr ⟨hp, by simp [hp]⟩
  · exact .inl ⟨hp, by simp [hp]⟩

theorem setPid_cases {s t u : State} {others : List Binding} {pid : Pid} (h : setPid s others pid t = .next u) :
    (s.phase = .ready ∧ (others.any (·.is pid) = true ∨ pid ∈ fixedTablePids s.cfg) ∧ u = s.respond .rejected) ∨
    (s.phase = .ready ∧ others.any (·.is pid) = false ∧ pid ∉ fixedTablePids s.cfg ∧ u = t.respond .done) ∨
    (s.phase ≠ .ready ∧ u = s.respond .refused) := by
  unfold setPid at h
  rcases inReady_cases h with ⟨hp, rfl⟩ | ⟨hp, rfl⟩
  · split
    · next hc => exact .inl ⟨hp, by simpa using hc, rfl⟩
    · next hc =>
      simp only [Bool.or_eq_true, not_or, Bool.not_eq_true, List.contains_eq_mem, decide_eq_true_eq] at hc
      exact .inr (.inl ⟨hp, hc.1, by simpa using hc.2, rfl⟩)
  · exact .inr (.inr ⟨hp, rfl⟩)

/-! ## Errors and notifications -/

theorem satInc_le (cfg : Config) (c : Nat) (h : c ≤ counterMax cfg) : satInc cfg c ≤ counterMax cfg := by
  unfold satInc; split <;> omega

theorem le_satInc (cfg : Config) (c : Nat) : c ≤ satInc cfg c := by unfold satInc; split <;> omega

/-- `notify`: the stall with the slot enabled, nothing with it disabled. -/
theorem notify_cases (s : State) (u : UnitId) :
    (s.cbEnabled u = true ∧ s.notify u = { s with pending := u, phase := .inNotify, out := s.out ++ [.notify u] }) ∨
    (s.cbEnabled u = false ∧ s.notify u = s) := by
  unfold State.notify
  cases s.cbEnabled u
  · exact .inr ⟨rfl, rfl⟩
  · exact .inl ⟨rfl, rfl⟩

/-- The acknowledgement: back to the batch, with the completed page cleared when unit 9 was pending. -/
theorem acknowledge_cases (s : State) :
    (∃ k, s.pending = .ebu ∧ s.ebuDone = some k ∧
      s.acknowledge = { s.clearLines k with ebuDone := none, phase := .inBatch }) ∨
    ((s.pending ≠ .ebu ∨ s.ebuDone = none) ∧ s.acknowledge = { s with phase := .inBatch }) := by
  unfold State.acknowledge
  split
  · next k hp hd => exact .inl ⟨k, hp, hd, rfl⟩
  · next hn =>
    refine .inr ⟨?_, rfl⟩
    by_contra hc
    push Not at hc
    obtain ⟨k, hk⟩ := Option.ne_none_iff_exists'.1 hc.2
    exact hn k hc.1 hk

/-! ## The reassembler -/

theorem restart_cases (s : State) (p : Pid) (new : Bytes) :
    (new = [] ∧ s.restart p new = s.setCtx p (s.ctxOf p).idled) ∨
    (new ≠ [] ∧ s.restart p new = (s.setCtx p ((s.ctxOf p).filled new)).push [.unit (.drain p)]) := by
  unfold State.restart
  split
  · next h => exact .inl ⟨h, rfl⟩
  · next h => exact .inr ⟨h, rfl⟩

/-- What a routed packet makes the engine do. -/
theorem routeWork_cases (s : State) (packet payload : Bytes) :
    (s.bind.pcr.is s.hdr.pid = true ∧ routeWork s packet payload = [.unit (.pcrPacket packet)]) ∨
    (s.bind.pcr.is s.hdr.pid = false ∧ s.bind.ebu.is s.hdr.pid = true ∧
      routeWork s packet payload = (ebuUnits s.cfg payload s.hdr.pusi).map fun e => .unit (.event e)) ∨
    (s.bind.pcr.is s.hdr.pid = false ∧ s.bind.ebu.is s.hdr.pid = false ∧ s.hdr.afc.getLsbD 0 = true ∧
      ((s.ctxOf s.hdr.pid).state = .accumulating ∨ isTablePid s s.hdr.pid = true) ∧
      routeWork s packet payload = [.unit (.payloadPacket s.hdr.pid payload)]) ∨
    (s.bind.pcr.is s.hdr.pid = false ∧ s.bind.ebu.is s.hdr.pid = false ∧
      (s.hdr.afc.getLsbD 0 = false ∨ (s.ctxOf s.hdr.pid).state ≠ .accumulating ∧ isTablePid s s.hdr.pid = false) ∧
      routeWork s packet payload = []) := by
  unfold routeWork
  split
  · next h => exact .inl ⟨h, rfl⟩
  · next h =>
    simp only [Bool.not_eq_true] at h
    split
    · next h2 => exact .inr (.inl ⟨h, h2, rfl⟩)
    · next h2 =>
      simp only [Bool.not_eq_true] at h2
      split
      · next h3 =>
        simp only [Bool.or_eq_true, decide_eq_true_eq] at h3
        cases h4 : s.hdr.afc.getLsbD 0
        · exact .inr (.inr (.inr ⟨h, h2, .inl rfl, by simp⟩))
        · exact .inr (.inr (.inl ⟨h, h2, rfl, h3, by simp⟩))
      · next h3 =>
        simp only [Bool.or_eq_true, decide_eq_true_eq, not_or, Bool.not_eq_true] at h3
        exact .inr (.inr (.inr ⟨h, h2, .inr h3, rfl⟩))

theorem payloadOf_length (h : Hdr) (rest : Bytes) : (payloadOf h rest).length ≤ 184 := by
  unfold payloadOf slice
  split
  · simp only [List.length_drop, List.length_take]; omega
  · simp

/-! ## Framing -/

/-- A turn of the framing loop where no packet stands. -/
theorem reframe_cases (s : State) :
    (s.stream.length ≤ s.pc ∧ s.reframe = s.endBatch) ∨
    (s.pc < s.stream.length ∧ byteAt s.stream s.pc ≠ s.cfg.syncByte ∧
      s.reframe = { s.raise .framingSync with pc := s.nextSync }) ∨
    (s.pc < s.stream.length ∧ byteAt s.stream s.pc = s.cfg.syncByte ∧ s.cfg.xbuf = true ∧
      s.reframe = { s with carry := s.stream.drop s.pc, pc := s.stream.length }) ∨
    (s.pc < s.stream.length ∧ byteAt s.stream s.pc = s.cfg.syncByte ∧ s.cfg.xbuf = false ∧
      s.reframe = { s.raise .framingTrunc with pc := s.stream.length }) := by
  unfold State.reframe
  split
  · next h => exact .inl ⟨h, rfl⟩
  · next h =>
    split
    · next h2 => exact .inr (.inl ⟨by omega, h2, rfl⟩)
    · next h2 =>
      split
      · next h3 => exact .inr (.inr (.inl ⟨by omega, not_not.1 h2, h3, rfl⟩))
      · next h3 => exact .inr (.inr (.inr ⟨by omega, not_not.1 h2, by simpa using h3, rfl⟩))

/-- A packet stands at the cursor exactly when 188 bytes with a sync byte do. -/
theorem packetHere_eq_none (s : State) : s.packetHere = none ↔
    s.stream.length - s.pc < packetLength ∨ byteAt (s.stream.drop s.pc) 0 ≠ s.cfg.syncByte := by
  unfold State.packetHere decodePacket
  have hb : packetLength ≤ (s.stream.drop s.pc).length →
      byteAt ((s.stream.drop s.pc).take packetLength) 0 = byteAt (s.stream.drop s.pc) 0 := by
    intro hl
    simp only [byteAt, List.getD_eq_getElem?_getD, List.getElem?_take]
    simp [packetLength]
  simp only [List.length_take, List.length_drop] at hb ⊢
  by_cases h1 : s.stream.length - s.pc < packetLength
  · have : ¬ min packetLength (s.stream.length - s.pc) = packetLength := by omega
    simp [this, h1]
  · have : min packetLength (s.stream.length - s.pc) = packetLength := by omega
    rw [hb (by omega)]
    by_cases h2 : byteAt (s.stream.drop s.pc) 0 = s.cfg.syncByte
    · simp [this, h1, h2]
    · simp [this, h1, h2]

/-! ## The step -/

/-- An action of the host that is due is taken from the front of `host`; nothing else changes. -/
theorem takeAction_some {s t : State} {a : HostAct} (h : s.takeAction = some (a, t)) :
    ∃ w rest, s.host = ⟨a, w⟩ :: rest ∧ t = { s with host := rest } ∧ HostItem.due s.phase ⟨a, w⟩ = true := by
  unfold State.takeAction at h
  split at h
  · cases h
  · next x rest hs =>
    split at h
    · next hd =>
      obtain ⟨xa, xw⟩ := x
      simp only [Option.some.injEq, Prod.mk.injEq] at h
      obtain ⟨rfl, rfl⟩ := h
      exact ⟨xw, rest, hs, rfl, hd⟩
    · cases h

/-- The step, taken apart: an action of the host, an instruction of the engine, a move of the engine, or
nothing. -/
theorem step_cases {s u : State} (h : step s = .next u) :
    (∃ a t, s.takeAction = some (a, t) ∧ hostStep a t = .next u) ∨
    (s.takeAction = none ∧ s.phase = .inBatch ∧
      ((∃ i t, s.ticked.todo = .run i t ∧ exec i t = .next u) ∨ s.ticked.todo = .go u)) ∨
    (s.takeAction = none ∧ s.phase ≠ .inBatch ∧ u = s) := by
  unfold step at h
  split at h
  · next a t ha => exact .inl ⟨a, t, ha, h⟩
  · next ha =>
    split at h
    · next hp =>
      refine .inr (.inl ⟨ha, hp, ?_⟩)
      unfold engineStep at h
      split at h
      · next i t ht => exact .inl ⟨i, t, ht, h⟩
      · next t ht => exact .inr (by injection h with h; exact h ▸ ht)
    · next hp => exact .inr (.inr ⟨ha, hp, by injection h with h; exact h.symm⟩)

/-- An action of the host, taken apart. -/
theorem hostStep_cases {a : HostAct} {s u : State} (h : hostStep a s = .next u) :
    (∃ w i, a = .cmd w ∧ decodeCmd w = .ok i ∧ exec i s = .next u) ∨
    (∃ w e, a = .cmd w ∧ decodeCmd w = .error e ∧ malformedWord w s = .next u) ∨
    (∃ bytes, a = .batch bytes ∧ exec (.process bytes) s = .next u) ∨
    (a = .ack ∧ exec .ack s = .next u) ∨ (a = .powerOn ∧ u = s.powerOn) := by
  unfold hostStep at h
  split at h
  · next w =>
    split at h
    · next i hi => exact .inl ⟨w, i, rfl, hi, h⟩
    · next e he => exact .inr (.inl ⟨w, e, rfl, he, h⟩)
  · next bytes => exact .inr (.inr (.inl ⟨bytes, rfl, h⟩))
  · exact .inr (.inr (.inr (.inl ⟨rfl, h⟩)))
  · exact .inr (.inr (.inr (.inr ⟨rfl, by injection h with h; exact h.symm⟩)))

/-! ## Descriptors (44_descriptors.md R300) -/

/-- The descriptor at the front of a region and the region itself. -/
theorem splitDescriptor_some {r body rest : Bytes} {tag : Byte} (h : splitDescriptor r = some (tag, body, rest)) :
    r = descriptorBytes tag body ++ rest ∧ body.length < 256 := by
  match r with
  | [] => simp [splitDescriptor] at h
  | [_] => simp [splitDescriptor] at h
  | t :: len :: tl =>
    simp only [splitDescriptor] at h
    split at h
    · next hl =>
      simp only [Option.some.injEq, Prod.mk.injEq] at h
      obtain ⟨rfl, rfl, rfl⟩ := h
      have hlen : (tl.take len.toNat).length = len.toNat := by simp [hl]
      refine ⟨?_, by rw [hlen]; exact len.isLt⟩
      simp only [descriptorBytes, hlen, BitVec.ofNat_toNat, BitVec.setWidth_eq, List.cons_append,
        List.take_append_drop]
    · cases h

/-- A whole descriptor, then anything, splits after the descriptor. -/
theorem splitDescriptor_descriptorBytes (tag : Byte) (body rest : Bytes) (h : body.length < 256) :
    splitDescriptor (descriptorBytes tag body ++ rest) = some (tag, body, rest) := by
  have h8 : (BitVec.ofNat 8 body.length).toNat = body.length := by simp; omega
  simp [descriptorBytes, splitDescriptor, h8]

/-- The kind of a tag is the kind of a row of the map with that tag, or generic when no row has the tag. -/
theorem kindOf_cases (cfg : Config) (ns : Namespace) (tag : Byte) :
    (tag, kindOf cfg ns tag) ∈ tagRows cfg.descTags ns ∨
    (kindOf cfg ns tag = .generic ∧ ∀ e ∈ tagRows cfg.descTags ns, e.1 ≠ tag) := by
  unfold kindOf
  split
  · next e he =>
    have ht : e.1 = tag := by simpa using List.find?_some he
    exact .inl (ht ▸ List.mem_of_find?_eq_some he)
  · next hn =>
    refine .inr ⟨rfl, fun e he => ?_⟩
    simpa using List.find?_eq_none.1 hn e he

/-- More turns than the region has bytes change nothing: the walk over a region, one turn unfolded. -/
theorem descListFuel_stable (cfg : Config) (ns : Namespace) (r : Bytes) (n m : Nat) (hn : r.length ≤ n) (hm : r.length ≤ m) :
    descListFuel cfg ns n r = descListFuel cfg ns m r := by
  induction n generalizing r m with
  | zero =>
    have hr : r = [] := List.length_eq_zero_iff.1 (by omega)
    subst hr
    cases m <;> simp [descListFuel, splitDescriptor]
  | succ n ih =>
    cases m with
    | zero =>
      have hr : r = [] := List.length_eq_zero_iff.1 (by omega)
      subst hr
      simp [descListFuel, splitDescriptor]
    | succ m =>
      unfold descListFuel
      split
      · rfl
      · next tag body rest hs =>
        have hr := (splitDescriptor_some hs).1
        have hl : rest.length + 2 ≤ r.length := by rw [hr]; simp [descriptorBytes]
        rw [ih rest m (by omega) (by omega)]

theorem descList_none (cfg : Config) (ns : Namespace) (r : Bytes) (h : splitDescriptor r = none) : descList cfg ns r = [] := by
  unfold descList
  cases hr : r.length with
  | zero => rfl
  | succ n => simp [descListFuel, h]

theorem descList_some (cfg : Config) (ns : Namespace) (r : Bytes) {tag : Byte} {body rest : Bytes}
    (h : splitDescriptor r = some (tag, body, rest)) :
    descList cfg ns r = mkDescriptor tag body (infoOf cfg ns tag body) :: descList cfg ns rest := by
  have hr := (splitDescriptor_some h).1
  have hl : rest.length + 2 ≤ r.length := by rw [hr]; simp [descriptorBytes]
  unfold descList
  obtain ⟨n, hn⟩ : ∃ n, r.length = n + 1 := ⟨r.length - 1, by omega⟩
  rw [hn]
  simp only [descListFuel, h]
  rw [descListFuel_stable cfg ns rest n rest.length (by omega) (by omega)]

/-! ## Tables -/

theorem sameVersion_iff (valid : Bool) (held new : LongHeader) : sameVersion valid held new = true ↔
    valid = true ∧ new.versionNumber = held.versionNumber ∧ new.sectionNumber = held.sectionNumber := by
  simp [sameVersion, and_assoc]

theorem processDownload_cases (s : State) (e : DsmccEntry) :
    (s.dsmcc.state = .complete ∧ s.processDownload e = s) ∨
    (s.dsmcc.state = .collecting ∧ dsmccComplete s.cfg (s.dsmcc.sections ++ [e]) = true ∧
      s.processDownload e =
        State.notify { s with dsmcc := { state := .complete, sections := s.dsmcc.sections ++ [e] } } .dsmcc) ∨
    (s.dsmcc.state = .collecting ∧ dsmccComplete s.cfg (s.dsmcc.sections ++ [e]) = false ∧
      s.processDownload e = { s with dsmcc := { state := .collecting, sections := s.dsmcc.sections ++ [e] } }) := by
  unfold State.processDownload
  split
  · next h =>
    split
    · next h2 => exact .inr (.inl ⟨h, h2, rfl⟩)
    · next h2 => exact .inr (.inr ⟨h, by simpa using h2, by simp only [h]⟩)
  · next h =>
    refine .inl ⟨?_, rfl⟩
    cases hs : s.dsmcc.state
    · exact absurd hs h
    · rfl

end Sys2Proof.Machine
end

