-- ==== Sys2Proof/Laws/PerInstr.lean ====
section
/-! SUPPORT. The statements made per instruction: the family `EncodeFits`, one lemma for each constructor. -/

namespace Sys2Proof.Laws

/-! ## The shape of an encoding -/

/-- The opcodes of 30_encoding.md R121. -/
def commandOpcodes : List Byte :=
  [0x01#8, 0x02#8, 0x03#8, 0x04#8, 0x05#8, 0x06#8, 0x07#8, 0x08#8, 0x09#8, 0x10#8, 0x11#8, 0x12#8, 0x13#8, 0x14#8,
   0x15#8, 0x16#8, 0x18#8, 0x19#8]

/-- What 30_encoding.md says of the shape of a raw unit: a command word has one of the opcodes of R121, a packet
is 188 bytes that start with the sync byte (R101), a descriptor is as long as its length byte says (R109), a
section as long as its header says (R106). -/
def unitFits (cfg : Config) : Code → Prop
  | .cmdWord w => opOf w ∈ commandOpcodes
  | .packet p | .pcrPacket p => p.length = packetLength ∧ byteAt p 0 = cfg.syncByte
  | .payloadPacket _ b | .payload _ _ b => b.length ≤ 184
  | .extracted _ s | .validated _ s => 3 ≤ s.length ∧ s.length = 3 + (sectionLength s).toNat
  | .table _ _ s => s ≠ []
  | .descriptor _ b => 2 ≤ b.length ∧ b.length = 2 + (byteAt b 1).toNat
  | .batch _ | .ack | .drain _ | .event _ => True

/-- The encoding of a well-formed instruction has the shape of its format. -/
def EncodeFits.Statement (i : Instr) : Prop := ∀ cfg : Config, i.wf cfg = true → unitFits cfg (encode cfg i)

/-! ## Each format once -/

/-- The opcode of a command word. -/
theorem opOf_cmdWordOf (op : Byte) (f : CmdFields) : opOf (cmdWordOf op f) = op := by
  ext i hi
  simp only [opOf, cmdWordOf, BitVec.getElem_extractLsb', BitVec.getLsbD_append]
  rw [if_neg (by omega), if_neg (by omega), if_neg (by omega), if_neg (by omega), if_neg (by omega), if_neg (by omega)]
  rw [show 56 + i - 8 - 8 - 12 - 16 - 8 - 4 = i by omega]
  exact BitVec.getLsbD_eq_getElem hi

/-- The opcode of a `SET_PID_r` word. -/
theorem opOf_pidWordOf (op : Byte) (pid : Pid) : opOf (pidWordOf op pid) = op := by
  ext i hi
  simp only [opOf, pidWordOf, BitVec.getElem_extractLsb', BitVec.getLsbD_append]
  rw [if_neg (by omega), if_neg (by omega)]
  rw [show 56 + i - 13 - 43 = i by omega]
  exact BitVec.getLsbD_eq_getElem hi

/-- The length and the first byte of a packet. -/
theorem packetBytes_fits (cfg : Config) (afc : BitVec 2) (h : PktHead) (rest : Bytes) (hr : restFits rest = true) :
    (packetBytes cfg.syncByte afc h rest).length = packetLength ∧
      byteAt (packetBytes cfg.syncByte afc h rest) 0 = cfg.syncByte := by
  have hl : rest.length = 184 := by simpa [restFits] using hr
  refine ⟨by simp [packetBytes, be32, be16, packetLength, hl], ?_⟩
  show (BitVec.extractLsb' 8 8 (BitVec.extractLsb' 16 16 (headWord cfg.syncByte h afc))) = cfg.syncByte
  ext i hi
  simp only [headWord, BitVec.getElem_extractLsb', BitVec.getLsbD_extractLsb', BitVec.getLsbD_append]
  rw [if_neg (by omega), if_neg (by omega), if_neg (by omega), if_neg (by omega), if_neg (by omega), if_neg (by omega),
    if_neg (by omega)]
  rw [show 16 + (8 + i) - 4 - 2 - 2 - 13 - 1 - 1 - 1 = i by omega]
  simp [show 8 + i < 16 by omega, BitVec.getLsbD_eq_getElem hi]

/-- The bytes of a descriptor. -/
theorem descriptorBytes_fits {cfg : Config} {ns : Namespace} {tag : Byte} {kind : DescKind} {body : Bytes}
    (h : descFits cfg ns tag kind body = true) :
    2 ≤ (descriptorBytes tag body).length ∧
      (descriptorBytes tag body).length = 2 + (byteAt (descriptorBytes tag body) 1).toNat := by
  have hb : body.length < 256 := by simpa [bodyFits] using (Bool.and_eq_true_iff.1 h).1
  refine ⟨by simp [descriptorBytes], ?_⟩
  simp [descriptorBytes, byteAt]
  omega

/-- A whole section is as long as its header says. -/
theorem wholeSection_fits (sec : Bytes) (h : wholeSection sec = true) :
    3 ≤ sec.length ∧ sec.length = 3 + (sectionLength sec).toNat := by
  simpa [wholeSection] using h

/-- A whole section is not empty. -/
theorem wholeSection_ne_nil (sec : Bytes) (h : wholeSection sec = true) : sec ≠ [] := by
  rintro rfl
  simp [wholeSection] at h

/-- A section that a decoder accepts is not empty. -/
theorem sectionFor_ne_nil (cfg : Config) (r : Role) (sec : Bytes) (h : sectionFor cfg r sec = true) : sec ≠ [] := by
  simp only [sectionFor, plainSection, Bool.and_eq_true] at h
  exact wholeSection_ne_nil sec h.1.1.1

/-- A payload is at most 184 bytes. -/
theorem payloadFits_le (b : Bytes) (h : payloadFits b = true) : b.length ≤ 184 := by simpa [payloadFits] using h

/-! ## The instructions -/

theorem EncodeFits.reset : EncodeFits.Statement .reset :=
  fun _ _ => by simp [encode, unitFits, opOf_cmdWordOf, commandOpcodes]

theorem EncodeFits.setPidDsmcc (pid : Pid) : EncodeFits.Statement (.setPidDsmcc pid) :=
  fun _ _ => by simp [encode, unitFits, opOf_pidWordOf, commandOpcodes]

theorem EncodeFits.setPidAit (pid : Pid) : EncodeFits.Statement (.setPidAit pid) :=
  fun _ _ => by simp [encode, unitFits, opOf_pidWordOf, commandOpcodes]

theorem EncodeFits.setPidPcr (pid : Pid) : EncodeFits.Statement (.setPidPcr pid) :=
  fun _ _ => by simp [encode, unitFits, opOf_pidWordOf, commandOpcodes]

theorem EncodeFits.setPidEbu (pid : Pid) : EncodeFits.Statement (.setPidEbu pid) :=
  fun _ _ => by simp [encode, unitFits, opOf_pidWordOf, commandOpcodes]

theorem EncodeFits.getErrors : EncodeFits.Statement .getErrors :=
  fun _ _ => by simp [encode, unitFits, opOf_cmdWordOf, commandOpcodes]

theorem EncodeFits.getPackets : EncodeFits.Statement .getPackets :=
  fun _ _ => by simp [encode, unitFits, opOf_cmdWordOf, commandOpcodes]

theorem EncodeFits.registerCb (unit : UnitId) : EncodeFits.Statement (.registerCb unit) :=
  fun _ _ => by simp [encode, unitFits, opOf_cmdWordOf, commandOpcodes]

theorem EncodeFits.unregisterCb (unit : UnitId) : EncodeFits.Statement (.unregisterCb unit) :=
  fun _ _ => by simp [encode, unitFits, opOf_cmdWordOf, commandOpcodes]

theorem EncodeFits.getField (unit : UnitId) (sel : Byte) (idx1 : BitVec 16) (idx2 : BitVec 12) :
    EncodeFits.Statement (.getField unit sel idx1 idx2) :=
  fun _ _ => by simp [encode, unitFits, opOf_cmdWordOf, commandOpcodes]

theorem EncodeFits.getListLen (unit : UnitId) (sel : Byte) (idx1 : BitVec 16) :
    EncodeFits.Statement (.getListLen unit sel idx1) :=
  fun _ _ => by simp [encode, unitFits, opOf_cmdWordOf, commandOpcodes]

theorem EncodeFits.getDescListLenAll (unit : UnitId) (sel : Byte) (idx1 : BitVec 16) :
    EncodeFits.Statement (.getDescListLenAll unit sel idx1) :=
  fun _ _ => by simp [encode, unitFits, opOf_cmdWordOf, commandOpcodes]

theorem EncodeFits.getDescListLenForTag (unit : UnitId) (sel : Byte) (idx1 : BitVec 16) (tag : Byte) :
    EncodeFits.Statement (.getDescListLenForTag unit sel idx1 tag) :=
  fun _ _ => by simp [encode, unitFits, opOf_cmdWordOf, commandOpcodes]

theorem EncodeFits.getDescByIndex (unit : UnitId) (sel : Byte) (idx1 : BitVec 16) (idx2 : BitVec 12) :
    EncodeFits.Statement (.getDescByIndex unit sel idx1 idx2) :=
  fun _ _ => by simp [encode, unitFits, opOf_cmdWordOf, commandOpcodes]

theorem EncodeFits.getDescByTag (unit : UnitId) (sel : Byte) (idx1 : BitVec 16) (idx2 : BitVec 12) (tag : Byte) :
    EncodeFits.Statement (.getDescByTag unit sel idx1 idx2 tag) :=
  fun _ _ => by simp [encode, unitFits, opOf_cmdWordOf, commandOpcodes]

theorem EncodeFits.getDescField (unit : UnitId) (sel : Byte) (idx1 : BitVec 16) (idx2 : BitVec 12) (idx3 : Byte) (fid : Byte) :
    EncodeFits.Statement (.getDescField unit sel idx1 idx2 idx3 fid) :=
  fun _ _ => by simp [encode, unitFits, opOf_cmdWordOf, commandOpcodes]

theorem EncodeFits.dsmccIsComplete : EncodeFits.Statement .dsmccIsComplete :=
  fun _ _ => by simp [encode, unitFits, opOf_cmdWordOf, commandOpcodes]

theorem EncodeFits.dsmccDecode : EncodeFits.Statement .dsmccDecode :=
  fun _ _ => by simp [encode, unitFits, opOf_cmdWordOf, commandOpcodes]

theorem EncodeFits.process (bytes : Bytes) : EncodeFits.Statement (.process bytes) := fun _ _ => trivial

theorem EncodeFits.ack : EncodeFits.Statement .ack := fun _ _ => trivial

theorem EncodeFits.tspktRsv (h : PktHead) (rest : Bytes) : EncodeFits.Statement (.tspktRsv h rest) :=
  fun cfg hw => packetBytes_fits cfg _ h rest hw

theorem EncodeFits.tspktPl (h : PktHead) (rest : Bytes) : EncodeFits.Statement (.tspktPl h rest) :=
  fun cfg hw => packetBytes_fits cfg _ h rest hw

theorem EncodeFits.tspktAf (h : PktHead) (rest : Bytes) : EncodeFits.Statement (.tspktAf h rest) :=
  fun cfg hw => packetBytes_fits cfg _ h rest hw

theorem EncodeFits.tspktAfpl (h : PktHead) (rest : Bytes) : EncodeFits.Statement (.tspktAfpl h rest) :=
  fun cfg hw => packetBytes_fits cfg _ h rest hw

theorem EncodeFits.pcrDecode (pid : Pid) (afl : Byte) (field : BitVec 48) :
    EncodeFits.Statement (.pcrDecode pid afl field) :=
  fun cfg _ => packetBytes_fits cfg _ _ _ (by
  simp only [restFits, be48, be32, be16, List.length_append, List.length_replicate, List.length_cons, List.length_nil]
  rfl)

theorem EncodeFits.secCc (pid : Pid) (payload : Bytes) : EncodeFits.Statement (.secCc pid payload) :=
  fun _ hw => payloadFits_le payload hw

theorem EncodeFits.secStart (pid : Pid) (payload : Bytes) : EncodeFits.Statement (.secStart pid payload) :=
  fun _ hw => payloadFits_le payload hw

theorem EncodeFits.secAppend (pid : Pid) (payload : Bytes) : EncodeFits.Statement (.secAppend pid payload) :=
  fun _ hw => payloadFits_le payload hw

theorem EncodeFits.secDrain (pid : Pid) : EncodeFits.Statement (.secDrain pid) := fun _ _ => trivial

theorem EncodeFits.secCrc (pid : Pid) (sec : Bytes) : EncodeFits.Statement (.secCrc pid sec) :=
  fun _ hw => wholeSection_fits sec (Bool.and_eq_true_iff.1 hw).1

theorem EncodeFits.secDispatch (pid : Pid) (sec : Bytes) : EncodeFits.Statement (.secDispatch pid sec) :=
  fun _ hw => wholeSection_fits sec hw

theorem EncodeFits.secPat (sec : Bytes) : EncodeFits.Statement (.secPat sec) :=
  fun cfg hw => sectionFor_ne_nil cfg .pat sec hw

theorem EncodeFits.secPmt (sec : Bytes) : EncodeFits.Statement (.secPmt sec) :=
  fun cfg hw => sectionFor_ne_nil cfg .pmt sec hw

theorem EncodeFits.secDsmcc (sec : Bytes) : EncodeFits.Statement (.secDsmcc sec) :=
  fun cfg hw => sectionFor_ne_nil cfg .dsmcc sec hw

theorem EncodeFits.secNit (sec : Bytes) : EncodeFits.Statement (.secNit sec) :=
  fun cfg hw => sectionFor_ne_nil cfg .nit sec hw

theorem EncodeFits.secSdt (sec : Bytes) : EncodeFits.Statement (.secSdt sec) :=
  fun cfg hw => sectionFor_ne_nil cfg .sdt sec hw

theorem EncodeFits.secEit (sec : Bytes) : EncodeFits.Statement (.secEit sec) :=
  fun cfg hw => sectionFor_ne_nil cfg .eit sec hw

theorem EncodeFits.secTdt (sec : Bytes) : EncodeFits.Statement (.secTdt sec) :=
  fun cfg hw => sectionFor_ne_nil cfg .tdt sec hw

theorem EncodeFits.secSt (sec : Bytes) : EncodeFits.Statement (.secSt sec) := fun _ hw => by
  simp only [Instr.wf, Bool.and_eq_true] at hw
  exact wholeSection_ne_nil sec hw.1.1

theorem EncodeFits.secAit (sec : Bytes) : EncodeFits.Statement (.secAit sec) :=
  fun cfg hw => sectionFor_ne_nil cfg .ait sec hw

theorem EncodeFits.secStuff (pid : Pid) : EncodeFits.Statement (.secStuff pid) :=
  fun _ _ => by simp [encode, unitFits]

theorem EncodeFits.secOther (sec : Bytes) : EncodeFits.Statement (.secOther sec) := fun _ hw => by
  simp only [Instr.wf, plainSection, Bool.and_eq_true] at hw
  exact wholeSection_ne_nil sec hw.1.1

theorem EncodeFits.descCa (body : Bytes) : EncodeFits.Statement (.descCa body) :=
  fun _ hw => descriptorBytes_fits hw

theorem EncodeFits.descIso639 (body : Bytes) : EncodeFits.Statement (.descIso639 body) :=
  fun _ hw => descriptorBytes_fits hw

theorem EncodeFits.descCarouselId (body : Bytes) : EncodeFits.Statement (.descCarouselId body) :=
  fun _ hw => descriptorBytes_fits hw

theorem EncodeFits.descNetworkName (body : Bytes) : EncodeFits.Statement (.descNetworkName body) :=
  fun _ hw => descriptorBytes_fits hw

theorem EncodeFits.descServiceList (body : Bytes) : EncodeFits.Statement (.descServiceList body) :=
  fun _ hw => descriptorBytes_fits hw

theorem EncodeFits.descService (body : Bytes) : EncodeFits.Statement (.descService body) :=
  fun _ hw => descriptorBytes_fits hw

theorem EncodeFits.descLinkage (body : Bytes) : EncodeFits.Statement (.descLinkage body) :=
  fun _ hw => descriptorBytes_fits hw

theorem EncodeFits.descShortEvent (body : Bytes) : EncodeFits.Statement (.descShortEvent body) :=
  fun _ hw => descriptorBytes_fits hw

theorem EncodeFits.descExtEvent (body : Bytes) : EncodeFits.Statement (.descExtEvent body) :=
  fun _ hw => descriptorBytes_fits hw

theorem EncodeFits.descComponent (body : Bytes) : EncodeFits.Statement (.descComponent body) :=
  fun _ hw => descriptorBytes_fits hw

theorem EncodeFits.descStreamId (body : Bytes) : EncodeFits.Statement (.descStreamId body) :=
  fun _ hw => descriptorBytes_fits hw

theorem EncodeFits.descContent (body : Bytes) : EncodeFits.Statement (.descContent body) :=
  fun _ hw => descriptorBytes_fits hw

theorem EncodeFits.descParental (body : Bytes) : EncodeFits.Statement (.descParental body) :=
  fun _ hw => descriptorBytes_fits hw

theorem EncodeFits.descTeletext (body : Bytes) : EncodeFits.Statement (.descTeletext body) :=
  fun _ hw => descriptorBytes_fits hw

theorem EncodeFits.descSubtitling (body : Bytes) : EncodeFits.Statement (.descSubtitling body) :=
  fun _ hw => descriptorBytes_fits hw

theorem EncodeFits.descDataBcastId (body : Bytes) : EncodeFits.Statement (.descDataBcastId body) :=
  fun _ hw => descriptorBytes_fits hw

theorem EncodeFits.descAppSignalling (body : Bytes) : EncodeFits.Statement (.descAppSignalling body) :=
  fun _ hw => descriptorBytes_fits hw

theorem EncodeFits.descApplication (body : Bytes) : EncodeFits.Statement (.descApplication body) :=
  fun _ hw => descriptorBytes_fits hw

theorem EncodeFits.descAppName (body : Bytes) : EncodeFits.Statement (.descAppName body) :=
  fun _ hw => descriptorBytes_fits hw

theorem EncodeFits.descTransportProtocol (body : Bytes) : EncodeFits.Statement (.descTransportProtocol body) :=
  fun _ hw => descriptorBytes_fits hw

theorem EncodeFits.descGeneric (ns : Namespace) (tag : Byte) (body : Bytes) :
    EncodeFits.Statement (.descGeneric ns tag body) :=
  fun _ hw => descriptorBytes_fits hw

theorem EncodeFits.ebuHeader (key : EbuKey) : EncodeFits.Statement (.ebuHeader key) := fun _ _ => trivial

theorem EncodeFits.ebuLine (key : EbuKey) (row : Byte) (data : Bytes) :
    EncodeFits.Statement (.ebuLine key row data) :=
  fun _ _ => trivial

end Sys2Proof.Laws
end

