-- ==== Sys2Proof/Tests/Slice0.lean ====
section
/-! SUPPORT. Tests of the model, each a named theorem: the refusals of WellFormed, the decoding of units written
out from 30_encoding.md, one step of each instruction with the values the spec's own examples give (the rule or
vector is named in each comment), and for every statement with hypotheses a concrete state that meets them. -/

namespace Sys2Proof.Tests

-- one theorem after another: several hundred evaluations at once would need as many threads
set_option Elab.async false

open Sys2Proof.Machine

/-! ## Helpers -/

/-- Bytes from their values. -/
def hx (l : List Nat) : Bytes := l.map (BitVec.ofNat 8)

/-- The next state of an outcome. -/
def nextOf : Result State → Option State
  | .next t => some t
  | .fault _ => none
  | .refused _ => none

/-- A part of the next state of one instruction. -/
def after {α : Type} (i : Instr) (s : State) (f : State → α) : Option α := (nextOf (exec i s)).map f

/-- The last response after one instruction. -/
def answer (i : Instr) (s : State) : Option Response :=
  (nextOf (exec i s)).bind fun t => match t.out.getLast? with
    | some (.response r) => some r
    | _ => none

/-- A field of the descriptor that one instruction builds. -/
def fieldOf (i : Instr) (fid : Byte) (k : Nat) : Option FieldVal :=
  (nextOf (exec i {})).bind fun t => t.dlist.head?.bind fun d => descField d fid k

/-- A packet of 188 bytes from its first bytes. -/
def packet (l : List Nat) : Bytes := hx l ++ List.replicate (188 - l.length) 0xFF#8

/-- The engine in a batch with the given work. -/
def running (w : List Work) : State := { phase := .inBatch, work := w }

/-- The engine stalled in a notification of a unit. -/
def stalled (u : UnitId) : State := { phase := .inNotify, pending := u }

/-! ## The sections of 95_test_vectors.md, section 0 -/

def pat1 : Bytes :=
  hx [0x00, 0xB0, 0x0D, 0x00, 0x01, 0xC1, 0x00, 0x00, 0x00, 0x01, 0xF0, 0x00, 0x2A, 0xB1, 0x04, 0xB2]

def pmt1 : Bytes :=
  hx [0x02, 0xB0, 0x1D, 0x00, 0x01, 0xC1, 0x00, 0x00, 0xE1, 0x00, 0xF0, 0x00, 0x02, 0xE1, 0x00, 0xF0, 0x00, 0x04,
    0xE1, 0x01, 0xF0, 0x06, 0x0A, 0x04, 0x65, 0x6E, 0x67, 0x00, 0xF4, 0xA7, 0xF3, 0x64]

def nit1 : Bytes :=
  hx [0x40, 0xF0, 0x1D, 0x00, 0x01, 0xC3, 0x00, 0x00, 0xF0, 0x05, 0x40, 0x03, 0x4E, 0x65, 0x74, 0xF0, 0x0B, 0x00,
    0x01, 0x00, 0x01, 0xF0, 0x05, 0x41, 0x03, 0x00, 0x01, 0x01, 0x03, 0x55, 0x9D, 0x95]

def sdt1 : Bytes :=
  hx [0x42, 0xF0, 0x1C, 0x00, 0x01, 0xC5, 0x00, 0x00, 0x00, 0x01, 0xFF, 0x00, 0x01, 0xFD, 0x80, 0x0B, 0x48, 0x09,
    0x01, 0x03, 0x50, 0x72, 0x76, 0x03, 0x53, 0x76, 0x63, 0x30, 0x09, 0xDB, 0x7B]

def eit1 : Bytes :=
  hx [0x4E, 0xF0, 0x26, 0x00, 0x01, 0xC7, 0x00, 0x01, 0x00, 0x01, 0x00, 0x01, 0x01, 0x4E, 0x00, 0x10, 0xC0, 0x79,
    0x12, 0x45, 0x00, 0x01, 0x30, 0x00, 0x80, 0x0B, 0x4D, 0x09, 0x65, 0x6E, 0x67, 0x04, 0x4E, 0x65, 0x77, 0x73,
    0x00, 0x8C, 0x0E, 0xBA, 0x76]

def tdt1 : Bytes :=
  hx [0x70, 0x70, 0x09, 0xC0, 0x79, 0x12, 0x45, 0x00, 0x77, 0x8D, 0x91, 0x5C]

def ait1 : Bytes :=
  hx [0x74, 0xF0, 0x30, 0x00, 0x10, 0xC1, 0x00, 0x00, 0xF0, 0x00, 0xF0, 0x23, 0x00, 0x00, 0x00, 0x17, 0x00, 0x01,
    0x01, 0xF0, 0x1A, 0x00, 0x09, 0x05, 0x00, 0x00, 0x01, 0x01, 0x01, 0xFF, 0x01, 0x01, 0x01, 0x08, 0x65, 0x6E,
    0x67, 0x04, 0x54, 0x65, 0x73, 0x74, 0x02, 0x03, 0x00, 0x03, 0x01, 0x91, 0x15, 0x74, 0x38]

def dsm1 : Bytes :=
  hx [0x3B, 0xB0, 0x0D, 0x00, 0x01, 0xC1, 0x00, 0x00, 0x11, 0x03, 0x10, 0x02, 0x5E, 0x8C, 0x3E, 0xAE]

/-! ## WellFormed: each check refuses an ill-formed term, and lets a well-formed one pass -/

/-- restFits -/
theorem test_wf_packet_too_short :
    Instr.wf {} (.tspktPl ⟨false, false, false, 0, 0, 0⟩ (List.replicate 183 0)) = false := by decide +kernel

/-- payloadFits -/
theorem test_wf_payload_too_long : Instr.wf {} (.secCc 0 (List.replicate 185 0)) = false := by decide +kernel

/-- wholeSection: the length the header declares -/
theorem test_wf_section_short_of_its_length : Instr.wf {} (.secDispatch 0 (pat1.take 15)) = false := by decide +kernel

/-- wholeSection: at least 3 bytes -/
theorem test_wf_section_without_header : Instr.wf {} (.secDispatch 0 (hx [0x00, 0xB0])) = false := by decide +kernel

/-- SEC.CRC never sees a stuffing section -/
theorem test_wf_crc_of_stuffing : Instr.wf {} (.secCrc 0 (hx [0x72, 0x70, 0x00])) = false := by decide +kernel

/-- SEC.ST is for stuffing ids only -/
theorem test_wf_stuffing_of_a_table : Instr.wf {} (.secSt pat1) = false := by decide +kernel

/-- SEC.ST is not for padding -/
theorem test_wf_padding_is_no_stuffing_section :
    Instr.wf { stuffingIds := [0xFF#8] } (.secSt (hx [0xFF, 0x70, 0x00])) = false := by decide +kernel

/-- plainSection: no padding -/
theorem test_wf_other_of_padding : Instr.wf {} (.secOther (hx [0xFF, 0x70, 0x00])) = false := by decide +kernel

/-- plainSection: no stuffing -/
theorem test_wf_other_of_stuffing : Instr.wf {} (.secOther (hx [0x72, 0x70, 0x00])) = false := by decide +kernel

/-- sectionFor: a table_id that the role does not accept -/
theorem test_wf_wrong_table : Instr.wf {} (.secPat pmt1) = false := by decide +kernel

/-- bodyFits -/
theorem test_wf_body_too_long : Instr.wf {} (.descCa (List.replicate 256 0)) = false := by decide +kernel

/-- a known tag is not generic -/
theorem test_wf_generic_of_known_tag : Instr.wf {} (.descGeneric .si 0x0A []) = false := by decide +kernel

/-- descFits: the map gives the tag to an earlier kind -/
theorem test_wf_tag_of_an_earlier_kind :
    Instr.wf { descTags := { streamId := 0x09#8 } } (.descStreamId []) = false ∧
      Instr.wf { descTags := { streamId := 0x09#8 } } (.descCa []) = true := by decide +kernel

theorem test_wf_accepts :
    ([.secPat pat1, .secPmt pmt1, .secNit nit1, .secSdt sdt1, .secEit eit1, .secTdt tdt1, .secAit ait1, .secDsmcc dsm1,
      .secCc 0 (List.replicate 184 0), .descCa (List.replicate 255 0), .descGeneric .ait 0x0A [],
      .secCrc 0 pat1, .secDispatch 0 pat1, .secOther pat1, .secSt (hx [0x72, 0x70, 0x00])] : List Instr).all (Instr.wf {}) = true :=
  by decide +kernel

/-! ## Decoding: a unit of every instruction, written out from the encoding tables -/

/-! Level 0, 30_encoding.md R120, R121; the words are the examples of 40_host_commands.md and 95_test_vectors.md. -/

theorem test_decode_reset : decodeCmd 0x0100000000000000#64 = .ok .reset := by decide +kernel

theorem test_decode_setPidDsmcc : decodeCmd 0x0200000000000BB9#64 = .ok (.setPidDsmcc 0x0BB9) := by decide +kernel

theorem test_decode_setPidAit : decodeCmd 0x0300000000001FFF#64 = .ok (.setPidAit 0x1FFF) := by decide +kernel

theorem test_decode_setPidPcr : decodeCmd 0x0400000000000100#64 = .ok (.setPidPcr 0x0100) := by decide +kernel

theorem test_decode_setPidEbu : decodeCmd 0x0500000000000104#64 = .ok (.setPidEbu 0x0104) := by decide +kernel

theorem test_decode_getErrors : decodeCmd 0x0600000000000000#64 = .ok .getErrors := by decide +kernel

theorem test_decode_getPackets : decodeCmd 0x0700000000000000#64 = .ok .getPackets := by decide +kernel

theorem test_decode_registerCb : decodeCmd 0x0810000000000000#64 = .ok (.registerCb .pmt) := by decide +kernel

theorem test_decode_unregisterCb : decodeCmd 0x0990000000000000#64 = .ok (.unregisterCb .ebu) := by decide +kernel

/-- unit 9, sel 0x15, idx1 1, idx2 2 -/
theorem test_decode_getField : decodeCmd 0x1091500010020000#64 = .ok (.getField .ebu 0x15 1 2) := by decide +kernel

theorem test_decode_getListLen : decodeCmd 0x1191400020000000#64 = .ok (.getListLen .ebu 0x14 2) := by decide +kernel

theorem test_decode_getDescListLenAll :
    decodeCmd 0x1212100010000000#64 = .ok (.getDescListLenAll .pmt 0x21 1) := by decide +kernel

theorem test_decode_getDescListLenForTag :
    decodeCmd 0x131210001000000A#64 = .ok (.getDescListLenForTag .pmt 0x21 1 0x0A) := by decide +kernel

theorem test_decode_getDescByIndex :
    decodeCmd 0x1462100000020000#64 = .ok (.getDescByIndex .ait 0x21 0 2) := by decide +kernel

theorem test_decode_getDescByTag :
    decodeCmd 0x151210001001000A#64 = .ok (.getDescByTag .pmt 0x21 1 1 0x0A) := by decide +kernel

theorem test_decode_getDescField :
    decodeCmd 0x166210000003010A#64 = .ok (.getDescField .ait 0x21 0 3 1 0x0A) := by decide +kernel

theorem test_decode_dsmccIsComplete : decodeCmd 0x1870000000000000#64 = .ok .dsmccIsComplete := by decide +kernel

theorem test_decode_dsmccDecode : decodeCmd 0x1970000000000000#64 = .ok .dsmccDecode := by decide +kernel

/-- V-CMD-9 to V-CMD-11, V-CMD-20 -/
theorem test_decode_rejects :
    (decodeCmd 0xFF00000000000000#64 = .error .unknownOpcode ∧ decodeCmd 0x1700000000000000#64 = .error .unknownOpcode) ∧
      decodeCmd 0x08A0000000000000#64 = .error .unitTooLarge ∧ decodeCmd 0x0400000000002000#64 = .error .unusedFieldSet ∧
      decodeCmd 0x1860000000000000#64 = .error .unusedFieldSet :=
  by decide +kernel

theorem test_decode_ports :
    decode {} (.batch [0x47#8]) = .ok (.process [0x47#8]) ∧ decode {} .ack = .ok .ack := by decide +kernel

/-! Level 1, 30_encoding.md R101, R103, R111; the packets are V-HDR-11, V-HDR-2, V-HDR-9, V-HDR-3, V-PCR-4. -/

theorem test_decode_tspktRsv :
    decodePacket 0x47#8 (packet [0x47, 0x00, 0x64, 0x0F, 0x05, 0x10]) = .ok (.tspktRsv ⟨false, false, false, 0x0064, 0, 15⟩
      ((packet [0x47, 0x00, 0x64, 0x0F, 0x05, 0x10]).drop 4)) :=
  by decide +kernel

theorem test_decode_tspktPl :
    decodePacket 0x47#8 (packet [0x47, 0x5F, 0xFF, 0x9A, 0xFF, 0xFF]) = .ok (.tspktPl ⟨false, true, false, 0x1FFF, 2, 10⟩
      ((packet [0x47, 0x5F, 0xFF, 0x9A, 0xFF, 0xFF]).drop 4)) :=
  by decide +kernel

theorem test_decode_tspktAf :
    decodePacket 0x47#8 (packet [0x47, 0x00, 0x64, 0x2F, 0xB7, 0x10]) = .ok (.tspktAf ⟨false, false, false, 0x0064, 0, 15⟩
      ((packet [0x47, 0x00, 0x64, 0x2F, 0xB7, 0x10]).drop 4)) :=
  by decide +kernel

theorem test_decode_tspktAfpl :
    decodePacket 0x47#8 (packet [0x47, 0xE0, 0x11, 0x37, 0x00, 0xFF]) = .ok (.tspktAfpl ⟨true, true, true, 0x0011, 0, 7⟩
      ((packet [0x47, 0xE0, 0x11, 0x37, 0x00, 0xFF]).drop 4)) :=
  by decide +kernel

theorem test_decode_pcrDecode :
    decode {} (.pcrPacket (packet [0x47, 0x01, 0x00, 0x20, 0xB7, 0x10, 0x09, 0x1A, 0x2B, 0x3C, 0x7F, 0x23])) =
      .ok (.pcrDecode 0x0100 0xB7 0x091A2B3C7F23) :=
  by decide +kernel

/-- V-PCR-8 and V-PCR-9: no PCR_flag, no adaptation field -/
theorem test_decode_no_pcr :
    decode {} (.pcrPacket (packet [0x47, 0x01, 0x00, 0x20, 0xB7, 0x00])) = .error .noPcr ∧
      decode {} (.pcrPacket (packet [0x47, 0x01, 0x00, 0x10, 0xB7, 0x10])) = .error .noPcr :=
  by decide +kernel

/-! The reassembler's units, 30_encoding.md R111 and 42_section_reassembly_crc.md. -/

theorem test_decode_micro_operations :
    decode {} (.payloadPacket 5 [1#8]) = .ok (.secCc 5 [1#8]) ∧ decode {} (.payload true 5 [1#8]) = .ok (.secStart 5 [1#8]) ∧
      decode {} (.payload false 5 [1#8]) = .ok (.secAppend 5 [1#8]) ∧ decode {} (.drain 5) = .ok (.secDrain 5) ∧
      decode {} (.extracted 0 pat1) = .ok (.secCrc 0 pat1) ∧
      decode {} (.extracted 0 (hx [0x72, 0x70, 0])) = .ok (.secSt (hx [0x72, 0x70, 0])) ∧
      decode {} (.validated 0 pat1) = .ok (.secDispatch 0 pat1) :=
  by decide +kernel

/-! Level 2, 30_encoding.md R112, R113: the pair (role of the PID, table_id). -/

theorem test_decode_secPat : decode {} (.table 0 [.pat] pat1) = .ok (.secPat pat1) := by decide +kernel

theorem test_decode_secPmt : decode {} (.table 0 [.pmt] pmt1) = .ok (.secPmt pmt1) := by decide +kernel

theorem test_decode_secNit : decode {} (.table 0 [.nit] nit1) = .ok (.secNit nit1) := by decide +kernel

theorem test_decode_secSdt : decode {} (.table 0 [.sdt] sdt1) = .ok (.secSdt sdt1) := by decide +kernel

theorem test_decode_secEit : decode {} (.table 0 [.eit] eit1) = .ok (.secEit eit1) := by decide +kernel

theorem test_decode_secTdt : decode {} (.table 0 [.tdt] tdt1) = .ok (.secTdt tdt1) := by decide +kernel

theorem test_decode_secAit : decode {} (.table 0 [.ait] ait1) = .ok (.secAit ait1) := by decide +kernel

theorem test_decode_secDsmcc : decode {} (.table 0 [.dsmcc] dsm1) = .ok (.secDsmcc dsm1) := by decide +kernel

theorem test_decode_secStuff : decode {} (.table 7 [.pat] (hx [0xFF, 0x00])) = .ok (.secStuff 7) := by decide +kernel

/-- a table_id that no role of the PID accepts -/
theorem test_decode_secOther :
    decode {} (.table 0 [.sdt] pat1) = .ok (.secOther pat1) ∧ decode {} (.table 0 [] pat1) = .ok (.secOther pat1) :=
  by decide +kernel

/-- R46: another `table_id` map -/
theorem test_decode_table_id_map :
    decode { tableIds := { pat := [0x90#8] } } (.table 0 [.pat] (hx [0x90, 0, 0])) = .ok (.secPat (hx [0x90, 0, 0])) ∧
      decode { tableIds := { pat := [0x90#8] } } (.table 0 [.pat] pat1) = .ok (.secOther pat1) := by decide +kernel

/-! Level 3, 30_encoding.md R109, R114, R115; the descriptors are the examples of 44_descriptors.md. -/

theorem test_decode_descCa :
    decode {} (.descriptor .si (hx [0x09, 0x06, 0x0B, 0x00, 0xE1, 0x23, 0xAA, 0xBB])) =
      .ok (.descCa (hx [0x0B, 0x00, 0xE1, 0x23, 0xAA, 0xBB])) :=
  by decide +kernel

theorem test_decode_descIso639 :
    decode {} (.descriptor .si (hx [0x0A, 0x08, 0x65, 0x6E, 0x67, 0x00, 0x64, 0x65, 0x75, 0x03])) =
      .ok (.descIso639 (hx [0x65, 0x6E, 0x67, 0x00, 0x64, 0x65, 0x75, 0x03])) :=
  by decide +kernel

theorem test_decode_descCarouselId :
    decode {} (.descriptor .si (hx [0x13, 0x06, 0x00, 0x00, 0x00, 0x2A, 0x00, 0x99])) =
      .ok (.descCarouselId (hx [0x00, 0x00, 0x00, 0x2A, 0x00, 0x99])) :=
  by decide +kernel

theorem test_decode_descNetworkName :
    decode {} (.descriptor .si (hx [0x40, 0x03, 0x4E, 0x65, 0x74])) =
      .ok (.descNetworkName (hx [0x4E, 0x65, 0x74])) :=
  by decide +kernel

theorem test_decode_descServiceList :
    decode {} (.descriptor .si (hx [0x41, 0x06, 0x00, 0x01, 0x01, 0x00, 0x02, 0x02])) =
      .ok (.descServiceList (hx [0x00, 0x01, 0x01, 0x00, 0x02, 0x02])) :=
  by decide +kernel

theorem test_decode_descService :
    decode {} (.descriptor .si (hx [0x48, 0x09, 0x01, 0x03, 0x50, 0x72, 0x76, 0x03, 0x53, 0x76, 0x63])) =
      .ok (.descService (hx [0x01, 0x03, 0x50, 0x72, 0x76, 0x03, 0x53, 0x76, 0x63])) :=
  by decide +kernel

theorem test_decode_descLinkage :
    decode {} (.descriptor .si (hx [0x4A, 0x08, 0x00, 0x01, 0x00, 0x02, 0x00, 0x03, 0x01, 0x7F])) =
      .ok (.descLinkage (hx [0x00, 0x01, 0x00, 0x02, 0x00, 0x03, 0x01, 0x7F])) :=
  by decide +kernel

theorem test_decode_descShortEvent :
    decode {} (.descriptor .si (hx [0x4D, 0x09, 0x65, 0x6E, 0x67, 0x04, 0x4E, 0x65, 0x77, 0x73, 0x00])) =
      .ok (.descShortEvent (hx [0x65, 0x6E, 0x67, 0x04, 0x4E, 0x65, 0x77, 0x73, 0x00])) :=
  by decide +kernel

theorem test_decode_descExtEvent :
    decode {} (.descriptor .si (hx [0x4E, 0x10, 0x01, 0x65, 0x6E, 0x67, 0x07, 0x02, 0x44, 0x69, 0x03, 0x42, 0x6F, 0x62, 0x03, 0x61, 0x62, 0x63])) =
      .ok (.descExtEvent (hx [0x01, 0x65, 0x6E, 0x67, 0x07, 0x02, 0x44, 0x69, 0x03, 0x42, 0x6F, 0x62, 0x03, 0x61, 0x62, 0x63])) :=
  by decide +kernel

theorem test_decode_descComponent :
    decode {} (.descriptor .si (hx [0x50, 0x08, 0xF1, 0x03, 0x05, 0x65, 0x6E, 0x67, 0x48, 0x44])) =
      .ok (.descComponent (hx [0xF1, 0x03, 0x05, 0x65, 0x6E, 0x67, 0x48, 0x44])) :=
  by decide +kernel

theorem test_decode_descStreamId :
    decode {} (.descriptor .si (hx [0x52, 0x01, 0x07])) =
      .ok (.descStreamId (hx [0x07])) := by decide +kernel

theorem test_decode_descContent :
    decode {} (.descriptor .si (hx [0x54, 0x04, 0x12, 0x00, 0x45, 0xAB])) =
      .ok (.descContent (hx [0x12, 0x00, 0x45, 0xAB])) :=
  by decide +kernel

theorem test_decode_descParental :
    decode {} (.descriptor .si (hx [0x55, 0x04, 0x47, 0x42, 0x52, 0x09])) =
      .ok (.descParental (hx [0x47, 0x42, 0x52, 0x09])) :=
  by decide +kernel

theorem test_decode_descTeletext :
    decode {} (.descriptor .si (hx [0x56, 0x05, 0x65, 0x6E, 0x67, 0x09, 0x88])) =
      .ok (.descTeletext (hx [0x65, 0x6E, 0x67, 0x09, 0x88])) :=
  by decide +kernel

theorem test_decode_descSubtitling :
    decode {} (.descriptor .si (hx [0x59, 0x08, 0x65, 0x6E, 0x67, 0x10, 0x00, 0x01, 0x00, 0x02])) =
      .ok (.descSubtitling (hx [0x65, 0x6E, 0x67, 0x10, 0x00, 0x01, 0x00, 0x02])) :=
  by decide +kernel

theorem test_decode_descDataBcastId :
    decode {} (.descriptor .si (hx [0x66, 0x04, 0x01, 0x23, 0xDE, 0xAD])) =
      .ok (.descDataBcastId (hx [0x01, 0x23, 0xDE, 0xAD])) :=
  by decide +kernel

theorem test_decode_descAppSignalling :
    decode {} (.descriptor .si (hx [0x6F, 0x06, 0x80, 0x10, 0xE3, 0x00, 0x01, 0xFF])) =
      .ok (.descAppSignalling (hx [0x80, 0x10, 0xE3, 0x00, 0x01, 0xFF])) :=
  by decide +kernel

theorem test_decode_descApplication :
    decode {} (.descriptor .ait (hx [0x00, 0x09, 0x05, 0x00, 0x00, 0x01, 0x01, 0x01, 0xFF, 0x01, 0x01])) =
      .ok (.descApplication (hx [0x05, 0x00, 0x00, 0x01, 0x01, 0x01, 0xFF, 0x01, 0x01])) :=
  by decide +kernel

theorem test_decode_descAppName :
    decode {} (.descriptor .ait (hx [0x01, 0x08, 0x65, 0x6E, 0x67, 0x04, 0x54, 0x65, 0x73, 0x74])) =
      .ok (.descAppName (hx [0x65, 0x6E, 0x67, 0x04, 0x54, 0x65, 0x73, 0x74])) :=
  by decide +kernel

theorem test_decode_descTransportProtocol :
    decode {} (.descriptor .ait (hx [0x02, 0x05, 0x00, 0x03, 0x01, 0x80, 0x00])) =
      .ok (.descTransportProtocol (hx [0x00, 0x03, 0x01, 0x80, 0x00])) :=
  by decide +kernel

/-- V-DSC-23, V-DSC-27 -/
theorem test_decode_descGeneric :
    decode {} (.descriptor .si (hx [0x83, 0x02, 0xCA, 0xFE])) = .ok (.descGeneric .si 0x83 (hx [0xCA, 0xFE])) ∧
      decode {} (.descriptor .ait (hx [0x0A, 0x00])) = .ok (.descGeneric .ait 0x0A []) :=
  by decide +kernel

/-- R46: another tag map -/
theorem test_decode_tag_map :
    decode { descTags := { streamId := 0x90#8 } } (.descriptor .si (hx [0x90, 1, 7])) = .ok (.descStreamId (hx [7])) ∧
      decode { descTags := { streamId := 0x90#8 } } (.descriptor .si (hx [0x52, 1, 7])) = .ok (.descGeneric .si 0x52 (hx [7])) := by
  decide +kernel

/-- V-DSC-W3: it overruns -/
theorem test_decode_not_one_descriptor :
    decode {} (.descriptor .si (hx [0x52, 0x05, 0x07])) = .error .notOneDescriptor := by decide +kernel

theorem test_decode_ebu :
    decode {} (.event (.header ⟨1, 0, 0⟩)) = .ok (.ebuHeader ⟨1, 0, 0⟩) ∧
      decode {} (.event (.line ⟨1, 0, 0⟩ 1 (hx [0x41]))) = .ok (.ebuLine ⟨1, 0, 0⟩ 1 (hx [0x41])) :=
  by decide +kernel

/-- the words of opcode_table.json: most significant byte first -/
theorem test_decode_table_words :
    decodeTableWord 64 0x0400000000000100 = some (.setPidPcr 0x0100) ∧
      decodeTableWord 8 0x4A = some (.descLinkage []) ∧ decodeTableWord 8 0x70 = some (.secTdt (hx [0x70, 0, 0])) ∧
      (decodeTableWord 32 0x47400015).isSome = true ∧ (decodeTableWord 48 0x47010020B710).isSome = true :=
  by decide +kernel

/-! ## One step of each instruction

Expected values: the examples of the rules and the vectors of 95_test_vectors.md named in each comment. -/

/-! ### Host commands -/

/-- After program P1: one PAT with program 1 on PID 0x1000, 3 packets. -/
def afterP1 : State := { pat := (parsePat {} pat1).getD {}, packets := 3, errors := 1, cbEn := 1 }

/-- After program P3, with the PMT as well. -/
def afterP3 : State := { afterP1 with pmt := (parsePmt {} pmt1).getD {} }

/-- Every table committed, each from its section of 95_test_vectors.md; a complete collector of one section; two
teletext pages, the second one closed. -/
def fullState : State :=
  { afterP3 with nit := (parseNit {} nit1).getD {}, sdt := (parseSdt {} sdt1).getD {}, eit := (parseEit {} eit1).getD {},
                 tdt := (parseTdt {} tdt1).getD {}, ait := (parseAit {} ait1).getD {},
                 dsmcc := ⟨.complete, [⟨0x3B, 1, 0, 0, 0, dsm1⟩]⟩, pcr := ⟨true, 300⟩,
                 ebu := [(keyIndex ⟨1, 2, 3⟩, ⟨true, [⟨1, [0x41#8]⟩]⟩), (keyIndex ⟨1, 3, 0⟩, ⟨true, []⟩)] }

/-- R141 -/
theorem test_status_codes : [Status.ok, .notFound, .rejected, .refused].map statusCode = [0, 1, 2, 3] := by decide

/-- R140, V-RST-2: the slots stay -/
theorem test_reset :
    after .reset afterP3 (fun t => (t.packets, t.errors, t.pat.valid, t.pmt.valid, t.cbEn)) = some (0, 0, false, false, 1) :=
  by decide +kernel

/-- V-PH-3 -/
theorem test_reset_refused : answer .reset (stalled .pat) = some .refused := by decide +kernel

/-- R144 -/
theorem test_setPidDsmcc : after (.setPidDsmcc 0x0BB9) {} (·.bind.dsmcc) = some ⟨true, 0x0BB9⟩ := by decide +kernel

/-- R145 -/
theorem test_setPidAit : after (.setPidAit 0x0BB8) {} (·.bind.ait) = some ⟨true, 0x0BB8⟩ := by decide +kernel

/-- R146 -/
theorem test_setPidPcr : after (.setPidPcr 0x0100) {} (·.bind.pcr) = some ⟨true, 0x0100⟩ := by decide +kernel

/-- R146: 0x0012 is PID_EIT -/
theorem test_setPidPcr_fixed :
    answer (.setPidPcr 0x0012) {} = some .rejected ∧ after (.setPidPcr 0x0012) {} (·.bind.pcr) = some {} :=
  by decide +kernel

/-- R147 -/
theorem test_setPidEbu :
    after (.setPidEbu 0x0104) { bind := { pcr := ⟨true, 0x0100⟩ } } (·.bind.ebu) = some ⟨true, 0x0104⟩ :=
  by decide +kernel

/-- R147 -/
theorem test_setPidEbu_held :
    answer (.setPidEbu 0x0100) { bind := { pcr := ⟨true, 0x0100⟩ } } = some .rejected := by decide +kernel

/-- R148 -/
theorem test_getErrors : answer .getErrors afterP1 = some (.scalar 1) := by decide +kernel

/-- R149 -/
theorem test_getPackets : answer .getPackets afterP1 = some (.scalar 3) := by decide +kernel

/-- R150: cb_en[1] -/
theorem test_registerCb : after (.registerCb .pmt) {} (·.cbEn) = some 2 := by decide +kernel

/-- R151: cb_en[0] -/
theorem test_unregisterCb : after (.unregisterCb .pat) { cbEn := 3 } (·.cbEn) = some 2 := by decide +kernel

/-- R152 to R161: P1, and the sections of every table -/
theorem test_getField :
    answer (.getField .pat 0x11 0 0) afterP1 = some (.scalar 0x1000) ∧ answer (.getField .pmt 0x00 0 0) afterP1 = some .notFound ∧
      answer (.getField .nit 0x12 0 0) fullState = some (.scalar 5) ∧ answer (.getField .nit 0x12 1 0) fullState = some .notFound ∧
      answer (.getField .sdt 0x10 0 0) fullState = some (.scalar 1) ∧ answer (.getField .eit 0x10 0 0) fullState = some (.scalar 0x10) ∧
      answer (.getField .ait 0x03 0 0) fullState = some (.scalar 0x10) ∧
      answer (.getField .tdt 0x08 0 0) fullState = some (.scalar 0xC079124500) ∧
      answer (.getField .ebu 0x11 1 0) fullState = some (.scalar 3) :=
  by decide +kernel

/-- R171: idx1 with a scalar selector; assumption log 22: a selector of a descriptor list -/
theorem test_getField_no_field :
    answer (.getField .pat 0x03 1 0) afterP1 = some .rejected ∧ answer (.getField .pmt 0x20 0 0) fullState = some .notFound ∧
      answer (.getField .pmt 0x21 0 0) fullState = some .notFound := by decide +kernel

/-- R153, V-CMD-6 -/
theorem test_getListLen :
    answer (.getListLen .pat 0x10 0) afterP1 = some (.scalar 1) ∧ answer (.getListLen .ebu 0x14 0) afterP1 = some .notFound ∧
      answer (.getListLen .ebu 0x14 1) fullState = some (.scalar 0) :=
  by decide +kernel

/-- R162, P3 -/
theorem test_getDescListLenAll :
    answer (.getDescListLenAll .pmt 0x21 1) afterP3 = some (.scalar 1) ∧
      answer (.getDescListLenAll .pmt 0x21 2) afterP3 = some .notFound :=
  by decide +kernel

/-- R163, P3 -/
theorem test_getDescListLenForTag :
    answer (.getDescListLenForTag .pmt 0x21 1 0x0A) afterP3 = some (.scalar 1) ∧
      answer (.getDescListLenForTag .pmt 0x21 1 0x59) afterP3 = some (.scalar 0) :=
  by decide +kernel

/-- R164, P3 -/
theorem test_getDescByIndex :
    answer (.getDescByIndex .pmt 0x21 1 0) afterP3 = some (.scalar 0x020A04) ∧
      answer (.getDescByIndex .pmt 0x21 1 1) afterP3 = some .notFound :=
  by decide +kernel

/-- R165, P3 -/
theorem test_getDescByTag :
    answer (.getDescByTag .pmt 0x21 1 0 0x0A) afterP3 = some (.scalar 0) ∧
      answer (.getDescByTag .pmt 0x21 1 0 0x59) afterP3 = some .notFound :=
  by decide +kernel

/-- R166, P3 -/
theorem test_getDescField :
    answer (.getDescField .pmt 0x21 1 0 0 0x01) afterP3 = some (.scalar 0x656E67) ∧
      answer (.getDescField .pmt 0x21 1 0 0 0xFF) afterP3 = some (.string (hx [0x65, 0x6E, 0x67, 0x00])) :=
  by decide +kernel

/-- R167 -/
theorem test_dsmccIsComplete :
    answer .dsmccIsComplete {} = some (.scalar 0) ∧ answer .dsmccIsComplete { dsmcc := ⟨.complete, []⟩ } = some (.scalar 1) :=
  by decide +kernel

/-- R168, V-PH-7 -/
theorem test_dsmccDecode :
    answer .dsmccDecode {} = some .notFound ∧ answer .dsmccDecode (stalled .pat) = some .refused := by decide +kernel

/-- 41_packet_deframe_route.md R180 -/
theorem test_process :
    after (.process (hx [0x47])) { cfg := { xbuf := true }, carry := hx [0x11] } (fun t => (t.phase, t.stream, t.carry, t.pc)) =
      some (.inBatch, hx [0x11, 0x47], [], 0) :=
  by decide +kernel

/-- 60_exceptions.md R382, V-CMD-23 -/
theorem test_ack :
    after .ack (stalled .pat) (·.phase) = some .inBatch ∧ answer .ack {} = some .refused := by decide +kernel

/-- R382: the completed page, 45_packet_decoders.md R355 -/
theorem test_ack_clears_page :
    (nextOf (exec .ack { stalled .ebu with ebuDone := some ⟨1, 0, 0⟩, ebu := [(0x1000000, ⟨true, [⟨1, []⟩]⟩)] })).map
      (fun t => (t.pageOf ⟨1, 0, 0⟩, t.ebuDone)) = some (⟨true, []⟩, none) :=
  by decide +kernel

/-- V-CMD-9, V-PH-5 -/
theorem test_malformed_word :
    (nextOf (malformedWord 0xFF00000000000000 {})).map (·.out) = some [.response .rejected] ∧
      (nextOf (malformedWord 0xFF00000000000000 (stalled .pat))).map (·.out) = some [.response .refused] :=
  by decide +kernel

/-! ### Packets and the packet decoders -/

/-- V-HDR-11 -/
theorem test_tspktRsv :
    after (.tspktRsv ⟨false, false, false, 0x0064, 0, 15⟩ (hx [0x05, 0x10] ++ List.replicate 182 0xFF#8)) {}
      (fun t => (t.packets, t.hdr, t.work)) = some (1, ⟨false, false, false, 0x0064, 0, 0, 15, 0, true, 0, 4⟩, []) :=
  by decide +kernel

/-- V-HDR-1: PID_PAT goes to the reassembler with 184 bytes -/
theorem test_tspktPl :
    after (.tspktPl ⟨false, true, false, 0, 0, 5⟩ (List.replicate 184 0#8)) {} (fun t => (t.packets, t.hdr.plOff, t.work)) =
      some (1, 4, [.unit (.payloadPacket 0 (List.replicate 184 0#8))]) :=
  by decide +kernel

/-- V-HDR-10: an overrunning adaptation field -/
theorem test_tspktAf :
    after (.tspktAf ⟨false, false, false, 0x0064, 0, 15⟩ (hx [0xFF, 0x10] ++ List.replicate 182 0xFF#8)) {} (·.hdr) =
      some ⟨false, false, false, 0x0064, 0, 2, 15, 255, false, 0, 188⟩ :=
  by decide +kernel

/-- V-HDR-5: one byte of payload -/
theorem test_tspktAfpl :
    after (.tspktAfpl ⟨false, false, false, 0x0000, 0, 12⟩ (hx [0xB6, 0x10] ++ List.replicate 182 0xFF#8)) {}
      (fun t => (t.hdr.plOff, t.work)) = some (187, [.unit (.payloadPacket 0 [0xFF#8])]) :=
  by decide +kernel

/-- 41_packet_deframe_route.md R184 -/
theorem test_tspkt_routes_pcr_first :
    after (.tspktPl ⟨false, true, false, 7, 0, 0⟩ (List.replicate 184 0#8)) { bind := { pcr := ⟨true, 7⟩, ebu := ⟨true, 7⟩ } }
      (fun t => t.work.length) = some 1 :=
  by decide +kernel

/-- V-PCR-4 -/
theorem test_pcrDecode :
    after (.pcrDecode 0x0100 0xB7 0x091A2B3C7F23) {} (·.pcr) = some ⟨true, 91625969091⟩ := by decide +kernel

/-- V-PCR-7, V-PCR-10 -/
theorem test_pcrDecode_too_short :
    after (.pcrDecode 0x0100 6 0x00000000FE00) {} (·.pcr) = some {} ∧ after (.pcrDecode 0x0100 0xB8 0x00000000FE00) {} (·.pcr) = some {} :=
  by decide +kernel

/-- V-EBU-1: the first header opens the page -/
theorem test_ebuHeader :
    after (.ebuHeader ⟨1, 0, 0⟩) {} (fun t => (t.pageOf ⟨1, 0, 0⟩, t.phase)) = some (⟨true, []⟩, .ready) :=
  by decide +kernel

/-- V-EBU-1: the second one notifies -/
theorem test_ebuHeader_completes :
    after (.ebuHeader ⟨1, 0, 0⟩) { cbEn := 0x200, ebu := [(0x1000000, ⟨true, []⟩)] } (fun t => (t.phase, t.pending, t.out)) =
      some (.inNotify, .ebu, [.notify .ebu]) :=
  by decide +kernel

/-- V-EBU-2 -/
theorem test_ebuLine :
    after (.ebuLine ⟨1, 0, 0⟩ 1 (hx [0x41, 0x42])) { ebu := [(0x1000000, ⟨true, []⟩)] } (·.pageOf ⟨1, 0, 0⟩) =
      some ⟨true, [⟨1, hx [0x41, 0x42]⟩]⟩ :=
  by decide +kernel

/-- V-EBU-3 -/
theorem test_ebuLine_discarded : after (.ebuLine ⟨1, 0, 0⟩ 1 (hx [0x41])) {} (·.ebu) = some [] := by decide +kernel

/-! ### The reassembler -/

/-- A context for PID 0. -/
def ctx0 (c : Ctx) (cc : BitVec 4) : State := { ctx := [(0, c)], hdr := { cc := cc } }

/-- R211 example -/
theorem test_secCc_jump :
    after (.secCc 0 []) (ctx0 ⟨.accumulating, hx [0], true, 3⟩ 5) (fun t => (t.errors, t.ctxOf 0)) = some (1, ⟨.idle, [], true, 5⟩) :=
  by decide +kernel

/-- R211 example -/
theorem test_secCc_wrap :
    after (.secCc 0 []) (ctx0 ⟨.accumulating, hx [0], true, 15⟩ 0) (fun t => (t.errors, t.ctxOf 0)) =
      some (0, ⟨.accumulating, hx [0], true, 0⟩) :=
  by decide +kernel

/-- R212: tail first -/
theorem test_secStart :
    after (.secStart 0 (hx [2, 0xA0, 0xA1, 0xB0])) (ctx0 ⟨.accumulating, hx [0], true, 3⟩ 4) (fun t => (t.ctxOf 0, t.work)) =
      some (⟨.accumulating, hx [0, 0xA0, 0xA1], true, 3⟩, [.unit (.drain 0), .restart 0 (hx [0xB0])]) :=
  by decide +kernel

/-- V-SEC-5: a pointer beyond the payload -/
theorem test_secStart_idle :
    after (.secStart 0 (hx [5, 0xAA, 0xBB])) (ctx0 ⟨.idle, [], true, 0⟩ 0) (fun t => (t.ctxOf 0, t.work)) =
      some (⟨.idle, [], true, 0⟩, []) :=
  by decide +kernel

/-- R212 -/
theorem test_secAppend :
    after (.secAppend 0 (hx [1, 2])) (ctx0 ⟨.accumulating, hx [0], true, 3⟩ 4) (·.ctxOf 0) = some ⟨.accumulating, hx [0, 1, 2], true, 3⟩ :=
  by decide +kernel

/-- V-SEC-16 -/
theorem test_secAppend_idle :
    after (.secAppend 0 (hx [1, 2])) (ctx0 ⟨.idle, [], true, 3⟩ 4) (·.ctxOf 0) = some ⟨.idle, [], true, 3⟩ :=
  by decide +kernel

/-- R214 -/
theorem test_secDrain :
    after (.secDrain 0) (ctx0 ⟨.accumulating, pat1 ++ hx [0xFF, 0xFF], true, 0⟩ 0) (fun t => ((t.ctxOf 0).buf, t.work)) =
      some (hx [0xFF, 0xFF], [.unit (.extracted 0 pat1), .unit (.drain 0)]) :=
  by decide +kernel

/-- R213: 15 of 16 bytes -/
theorem test_secDrain_waits :
    after (.secDrain 0) (ctx0 ⟨.accumulating, pat1.take 15, true, 0⟩ 0) (fun t => ((t.ctxOf 0).buf, t.work)) = some (pat1.take 15, []) :=
  by decide +kernel

/-- R216 example -/
theorem test_secCrc :
    after (.secCrc 0 pat1) {} (fun t => (t.errors, t.work)) = some (0, [.unit (.validated 0 pat1)]) :=
  by decide +kernel

/-- R216 example: byte 4 changed to 02 -/
theorem test_secCrc_mismatch :
    after (.secCrc 0 (pat1.set 4 0x02#8)) {} (fun t => (t.errors, t.work, t.out)) = some (1, [], [.error .integrity]) :=
  by decide +kernel

/-- V-CRC-5, V-CRC-7, V-CRC-3 -/
theorem test_crc32 :
    crc32 {} (hx [0x31, 0x32, 0x33, 0x34, 0x35, 0x36, 0x37, 0x38, 0x39]) = 0x0376E6E7#32 ∧ crc32 {} pat1 = 0#32 ∧
      crc32 {} (hx [0x01]) = 0x4AC9A203#32 :=
  by decide +kernel

/-- R221 with the PMT PID learned from the PAT (R187) -/
theorem test_secDispatch :
    after (.secDispatch 0x1000 pmt1) afterP1 (·.work) = some [.unit (.table 0x1000 [.pmt] pmt1)] := by decide +kernel

/-- R220 -/
theorem test_secStuff :
    after (.secStuff 0) (ctx0 ⟨.accumulating, hx [0xFF], true, 3⟩ 4) (·.ctxOf 0) = some ⟨.idle, [], true, 3⟩ :=
  by decide +kernel

/-- V-SEC-7: no error -/
theorem test_secSt :
    after (.secSt (hx [0x72, 0x70, 0x03, 0xAA, 0xBB, 0xCC])) {} (fun t => t) = some {} := by decide +kernel

/-- V-SEC-11a: no error -/
theorem test_secOther : after (.secOther (hx [0x4A, 0xB0, 0x00])) {} (fun t => t) = some {} := by decide +kernel

/-! ### Tables: the examples of 43_table_decoders.md R255 to R262 -/

theorem test_secPat :
    after (.secPat pat1) { cbEn := 1 } (fun t => (t.pat.header.tableIdExtension, t.pat.programs, t.phase)) =
      some (1, [⟨1, 0x1000⟩], .inNotify) :=
  by decide +kernel

/-- R252: the same version and section number -/
theorem test_secPat_duplicate :
    after (.secPat pat1) { afterP1 with cbEn := 1 } (·.phase) = some .ready := by decide +kernel

theorem test_secPmt :
    after (.secPmt pmt1) {} (fun t => (t.pmt.pcrPid, t.pmt.streams.map fun x => (x.streamType, x.elementaryPid, x.esInfoLength))) =
      some (0x0100, [(0x02, 0x0100, 0), (0x04, 0x0101, 6)]) :=
  by decide +kernel

/-- R256 example 2 -/
theorem test_secPmt_overrun :
    after (.secPmt (hx [0x02, 0xB0, 0x15, 0x00, 0x01, 0xC3, 0x00, 0x00, 0xE1, 0x00, 0xF0, 0x00, 0x1B, 0xE1, 0x00, 0xF0, 0x20,
      0x52, 0x01, 0x07, 0x9C, 0x7D, 0x4B, 0x92])) {}
      (fun t => t.pmt.streams.map fun x => (x.esInfoLength, x.descriptors.map fun d => (d.tag, d.body))) =
      some [(32, [(0x52, hx [0x07])])] :=
  by decide +kernel

theorem test_secNit :
    after (.secNit nit1) {} (fun t => (t.nit.networkDescriptorsLength, t.nit.networkDescriptors.map (·.body))) =
      some (5, [hx [0x4E, 0x65, 0x74]]) ∧
    after (.secNit nit1) {} (fun t => (t.nit.streamLoopLength, t.nit.streams.map fun x => (x.transportStreamId, x.descriptorsLength))) =
      some (11, [(1, 5)]) :=
  by decide +kernel

theorem test_secSdt :
    after (.secSdt sdt1) {} (fun t => t.sdt.services.map fun x => (x.serviceId, x.eitSchedule, x.eitPresentFollowing)) =
      some [(1, 0, 1)] ∧
    after (.secSdt sdt1) {} (fun t => t.sdt.services.map fun x => (x.runningStatus, x.freeCaMode, x.loopLength)) =
      some [(4, 0, 11)] :=
  by decide +kernel

theorem test_secEit :
    after (.secEit eit1) {} (fun t => t.eit.events.map fun x => (x.eventId, x.startTime, x.duration)) =
      some [(0x0010, 0xC079124500, 0x013000)] ∧
    after (.secEit eit1) {} (fun t => t.eit.events.map fun x => (x.runningStatus, x.freeCaMode, x.loopLength)) =
      some [(4, 0, 11)] :=
  by decide +kernel

theorem test_secTdt : after (.secTdt tdt1) {} (·.tdt) = some ⟨true, 0x70, 0, 9, 0xC079124500⟩ := by decide +kernel

theorem test_secAit :
    after (.secAit ait1) {} (fun t => (testApplicationFlag t.ait, applicationType t.ait, t.ait.applicationLoopLength)) =
      some (0, 0x0010, 35) ∧
    after (.secAit ait1) {} (fun t => t.ait.applications.map fun x => (x.organisationId, x.controlCode, x.descriptors.length)) =
      some [(0x17, 1, 3)] :=
  by decide +kernel

/-- R262 example, V-DSM-3 -/
theorem test_secDsmcc :
    after (.secDsmcc dsm1) { cfg := { dsmccRule := .never } } (·.dsmcc) =
      some ⟨.collecting, [⟨0x3B, 0x0001, 0, 0, 0, dsm1⟩]⟩ :=
  by decide +kernel

/-- V-DSM-2 -/
theorem test_secDsmcc_completes :
    after (.secDsmcc dsm1) { cfg := { dsmccRule := .byNumbers }, cbEn := 0x080 } (fun t => (t.dsmcc.state, t.pending, t.phase)) =
      some (.complete, .dsmcc, .inNotify) :=
  by decide +kernel

/-! ### Descriptors: the examples of 44_descriptors.md R303 to R326 -/

theorem test_descCa :
    ([(0x00, 0), (0x01, 0), (0x02, 0)] : List (Byte × Nat)).map (fun x =>
      fieldOf (.descCa (hx [0x0B, 0x00, 0xE1, 0x23, 0xAA, 0xBB])) x.1 x.2) =
      [some (.num 0x0B00), some (.num 0x0123), some (.str (hx [0xAA, 0xBB]))] := by decide +kernel

theorem test_descIso639 :
    ([(0x00, 0), (0x01, 1), (0x02, 1), (0x01, 2)] : List (Byte × Nat)).map (fun x =>
      fieldOf (.descIso639 (hx [0x65, 0x6E, 0x67, 0x00, 0x64, 0x65, 0x75, 0x03])) x.1 x.2) =
      [some (.num 2), some (.num 0x646575), some (.num 3), none] := by decide +kernel

theorem test_descCarouselId :
    ([(0x00, 0), (0x01, 0), (0x02, 0)] : List (Byte × Nat)).map (fun x =>
      fieldOf (.descCarouselId (hx [0x00, 0x00, 0x00, 0x2A, 0x00, 0x99])) x.1 x.2) =
      [some (.num 0x2A), some (.num 0), some (.str (hx [0x99]))] := by decide +kernel

theorem test_descNetworkName :
    ([(0x00, 0)] : List (Byte × Nat)).map (fun x =>
      fieldOf (.descNetworkName (hx [0x4E, 0x65, 0x74])) x.1 x.2) =
      [some (.str (hx [0x4E, 0x65, 0x74]))] := by decide +kernel

theorem test_descServiceList :
    ([(0x00, 0), (0x01, 1), (0x02, 1)] : List (Byte × Nat)).map (fun x =>
      fieldOf (.descServiceList (hx [0x00, 0x01, 0x01, 0x00, 0x02, 0x02])) x.1 x.2) =
      [some (.num 2), some (.num 2), some (.num 2)] := by decide +kernel

theorem test_descService :
    ([(0x00, 0), (0x01, 0), (0x02, 0), (0x03, 0), (0x04, 0)] : List (Byte × Nat)).map (fun x =>
      fieldOf (.descService (hx [0x01, 0x03, 0x50, 0x72, 0x76, 0x03, 0x53, 0x76, 0x63])) x.1 x.2) =
      [some (.num 1), some (.num 3), some (.str (hx [0x50, 0x72, 0x76])), some (.num 3),
       some (.str (hx [0x53, 0x76, 0x63]))] := by decide +kernel

theorem test_descLinkage :
    ([(0x00, 0), (0x01, 0), (0x02, 0), (0x03, 0), (0x04, 0)] : List (Byte × Nat)).map (fun x =>
      fieldOf (.descLinkage (hx [0x00, 0x01, 0x00, 0x02, 0x00, 0x03, 0x01, 0x7F])) x.1 x.2) =
      [some (.num 1), some (.num 2), some (.num 3), some (.num 1), some (.str (hx [0x7F]))] := by decide +kernel

theorem test_descShortEvent :
    ([(0x00, 0), (0x01, 0), (0x02, 0), (0x03, 0), (0x04, 0)] : List (Byte × Nat)).map (fun x =>
      fieldOf (.descShortEvent (hx [0x65, 0x6E, 0x67, 0x04, 0x4E, 0x65, 0x77, 0x73, 0x00])) x.1 x.2) =
      [some (.num 0x656E67), some (.num 4), some (.str (hx [0x4E, 0x65, 0x77, 0x73])), some (.num 0),
       some (.str [])] := by decide +kernel

theorem test_descExtEvent :
    ([(0x00, 0), (0x01, 0), (0x02, 0), (0x03, 0), (0x04, 0), (0x05, 0), (0x06, 0), (0x07, 0), (0x08, 0)] : List (Byte × Nat)).map (fun x =>
      fieldOf (.descExtEvent (hx [0x01, 0x65, 0x6E, 0x67, 0x07, 0x02, 0x44, 0x69, 0x03, 0x42, 0x6F, 0x62, 0x03, 0x61, 0x62, 0x63])) x.1 x.2) =
      [some (.num 0), some (.num 1), some (.num 0x656E67), some (.num 7), some (.num 1),
       some (.str (hx [0x44, 0x69])), some (.str (hx [0x42, 0x6F, 0x62])), some (.num 3),
       some (.str (hx [0x61, 0x62, 0x63]))] := by decide +kernel

theorem test_descComponent :
    ([(0x00, 0), (0x05, 0), (0x01, 0), (0x02, 0), (0x03, 0), (0x04, 0)] : List (Byte × Nat)).map (fun x =>
      fieldOf (.descComponent (hx [0xF1, 0x03, 0x05, 0x65, 0x6E, 0x67, 0x48, 0x44])) x.1 x.2) =
      [some (.num 1), some (.num 0xF), some (.num 3), some (.num 5), some (.num 0x656E67),
       some (.str (hx [0x48, 0x44]))] := by decide +kernel

theorem test_descStreamId :
    ([(0x00, 0), (0x00, 1)] : List (Byte × Nat)).map (fun x =>
      fieldOf (.descStreamId (hx [0x07])) x.1 x.2) =
      [some (.num 7), none] := by decide +kernel

theorem test_descContent :
    ([(0x00, 0), (0x01, 1), (0x02, 1), (0x03, 1)] : List (Byte × Nat)).map (fun x =>
      fieldOf (.descContent (hx [0x12, 0x00, 0x45, 0xAB])) x.1 x.2) =
      [some (.num 2), some (.num 4), some (.num 5), some (.num 0xAB)] := by decide +kernel

theorem test_descParental :
    ([(0x00, 0), (0x01, 0), (0x02, 0)] : List (Byte × Nat)).map (fun x =>
      fieldOf (.descParental (hx [0x47, 0x42, 0x52, 0x09])) x.1 x.2) =
      [some (.num 1), some (.num 0x474252), some (.num 9)] := by decide +kernel

theorem test_descTeletext :
    ([(0x00, 0), (0x01, 0), (0x02, 0), (0x03, 0), (0x04, 0)] : List (Byte × Nat)).map (fun x =>
      fieldOf (.descTeletext (hx [0x65, 0x6E, 0x67, 0x09, 0x88])) x.1 x.2) =
      [some (.num 1), some (.num 0x656E67), some (.num 1), some (.num 1), some (.num 0x88)] := by decide +kernel

theorem test_descSubtitling :
    ([(0x00, 0), (0x01, 0), (0x02, 0), (0x03, 0), (0x04, 0)] : List (Byte × Nat)).map (fun x =>
      fieldOf (.descSubtitling (hx [0x65, 0x6E, 0x67, 0x10, 0x00, 0x01, 0x00, 0x02])) x.1 x.2) =
      [some (.num 1), some (.num 0x656E67), some (.num 0x10), some (.num 1), some (.num 2)] := by decide +kernel

theorem test_descDataBcastId :
    ([(0x00, 0), (0x01, 0)] : List (Byte × Nat)).map (fun x =>
      fieldOf (.descDataBcastId (hx [0x01, 0x23, 0xDE, 0xAD])) x.1 x.2) =
      [some (.num 0x0123), some (.str (hx [0xDE, 0xAD]))] := by decide +kernel

theorem test_descAppSignalling :
    ([(0x00, 0), (0x01, 0), (0x02, 0), (0x01, 1), (0x02, 1)] : List (Byte × Nat)).map (fun x =>
      fieldOf (.descAppSignalling (hx [0x80, 0x10, 0xE3, 0x00, 0x01, 0xFF])) x.1 x.2) =
      [some (.num 2), some (.num 0x0010), some (.num 3), some (.num 1), some (.num 31)] := by decide +kernel

theorem test_descApplication :
    ([(0x00, 0), (0x01, 0), (0x02, 0), (0x03, 0), (0x04, 0), (0x05, 0), (0x06, 0), (0x07, 0), (0x08, 0), (0x09, 0), (0x0A, 0)] : List (Byte × Nat)).map (fun x =>
      fieldOf (.descApplication (hx [0x05, 0x00, 0x00, 0x01, 0x01, 0x01, 0xFF, 0x01, 0x01])) x.1 x.2) =
      [some (.num 5), some (.num 1), some (.num 0), some (.num 1), some (.num 1), some (.num 1), some (.num 1),
       some (.num 3), some (.num 1), some (.num 1), some (.num 1)] := by decide +kernel

theorem test_descAppName :
    ([(0x00, 0), (0x01, 0), (0x02, 0), (0x03, 0)] : List (Byte × Nat)).map (fun x =>
      fieldOf (.descAppName (hx [0x65, 0x6E, 0x67, 0x04, 0x54, 0x65, 0x73, 0x74])) x.1 x.2) =
      [some (.num 1), some (.num 0x656E67), some (.num 4), some (.str (hx [0x54, 0x65, 0x73, 0x74]))] := by decide +kernel

theorem test_descTransportProtocol :
    ([(0x00, 0), (0x01, 0), (0x02, 0)] : List (Byte × Nat)).map (fun x =>
      fieldOf (.descTransportProtocol (hx [0x00, 0x03, 0x01, 0x80, 0x00])) x.1 x.2) =
      [some (.num 3), some (.num 1), some (.str (hx [0x80, 0x00]))] := by decide +kernel

/-- R307: a truncated body -/
theorem test_descCa_truncated :
    [0x00#8, 0x01#8, 0x02#8].map (fun x => fieldOf (.descCa (hx [0x0B, 0x00, 0xE1])) x 0) = [some (.num 0x0B00), none, none] :=
  by decide +kernel

/-- R312: a truncated body -/
theorem test_descService_truncated :
    [0x02#8, 0x03#8].map (fun x => fieldOf (.descService (hx [0x01, 0x03, 0x50, 0x72, 0x76])) x 0) =
      [some (.str (hx [0x50, 0x72, 0x76])), none] :=
  by decide +kernel

/-- V-DSC-13 -/
theorem test_descExtEvent_overrun :
    [0x03#8, 0x04#8, 0x05#8, 0x07#8].map (fun x => fieldOf (.descExtEvent (hx [0x01, 0x65, 0x6E, 0x67, 0x09, 0x01, 0x41])) x 0) =
      [some (.num 9), some (.num 0), none, none] :=
  by decide +kernel

/-- R303 -/
theorem test_descGeneric :
    [0xF0#8, 0xF1#8, 0xF2#8, 0xFF#8, 0x00#8].map (fun x => fieldOf (.descGeneric .si 0x83 (hx [0xCA, 0xFE])) x 0) =
      [some (.num 0x83), some (.num 2), some (.num 0), some (.str (hx [0xCA, 0xFE])), none] :=
  by decide +kernel

/-- R300 examples -/
theorem test_descriptor_walk :
    (descList {} .si (hx [0x52, 0x01, 0x07, 0x83, 0x00, 0x0A, 0x04, 0x65, 0x6E, 0x67, 0x00])).map (fun d => (d.tag, d.body)) =
      [(0x52, hx [0x07]), (0x83, []), (0x0A, hx [0x65, 0x6E, 0x67, 0x00])] ∧
      (descList {} .si (hx [0x52, 0x01, 0x07, 0x0A, 0x04, 0x65, 0x6E])).map (·.tag) = [0x52#8] :=
  by decide +kernel

/-! ### The step -/

/-- P2: the scan stops at the next sync byte -/
theorem test_step_framing_sync :
    (nextOf (step { running [] with stream := hx [0x12, 0x34, 0x56, 0x47] })).map (fun t => (t.pc, t.errors, t.out)) =
      some (3, 1, [.error .framingSync]) :=
  by decide +kernel

/-- V-FRM-2 -/
theorem test_step_framing_trunc :
    (nextOf (step { running [] with stream := hx [0x47, 0x40] })).map (fun t => (t.pc, t.errors)) = some (2, 1) :=
  by decide +kernel

/-- R180 -/
theorem test_step_end_of_batch :
    (nextOf (step { running [] with batchErr := true })).map (fun t => (t.phase, t.out)) = some (.ready, [.batchDone false]) :=
  by decide +kernel

theorem test_fetch_command :
    (nextOf (step (State.reset.withFetchWord 64 0x0810000000000000))).map (·.cbEn) = some 2 := by decide +kernel

theorem test_fetch_packet :
    (nextOf (step (State.reset.withFetchWord 32 0x47400015))).map (fun t => (t.packets, t.hdr.pusi, t.hdr.cc)) = some (1, true, 5) :=
  by decide +kernel

theorem test_fetch_section :
    (nextOf (step (State.reset.withFetchWord 8 0x4A))).map (·.dlist.length) = some 1 := by decide +kernel

/-! ## Witnesses: for each statement with hypotheses, concrete states and operands that meet them together, clause
by clause, at boundary values where a clause has a range -/

/-- The engine between packets, on the given bytes. -/
def streaming (xbuf : Bool) (stream : Bytes) (pc : Nat) : State :=
  { cfg := { xbuf := xbuf }, phase := .inBatch, stream := stream, pc := pc }

/-- One action of the host. -/
def hosted (ph : Phase) (a : HostAct) (n : Option Nat) : State := { phase := ph, host := [⟨a, n⟩] }

/-- A body of 255 bytes, the longest. -/
def longBody : Bytes := List.replicate 255 0x41#8

theorem witness_DecodeEncode :
    ([.getDescField .ebu 0xFF 0xFFFF 0xFFF 0xFF 0xFF, .setPidEbu 0x1FFF, .process [], .pcrDecode 0x1FFF 0xFF 0xFFFFFFFFFFFF,
      .tspktRsv ⟨true, true, true, 0x1FFF, 3, 15⟩ (List.replicate 184 0xFF), .secStart 0 [], .secDrain 0x1FFF, .secStuff 0,
      .descGeneric .ait 0xFF longBody, .descCa [], .ebuLine ⟨15, 0xFF, 0xFFFF⟩ 0xFF longBody, .secTdt (hx [0x70, 0, 0])] :
        List Instr).all (Instr.wf {}) = true := by decide +kernel

theorem witness_WordsHaveOneMeaning :
    decodeCmd 0x169FFFFFFFFFFFFF#64 = .ok (.getDescField .ebu 0xFF 0xFFFF 0xFFF 0xFF 0xFF) ∧
      decodePacket 0x47#8 (packet [0x47, 0, 0, 0x3F]) =
        .ok (.tspktAfpl ⟨false, false, false, 0, 0, 15⟩ (List.replicate 184 0xFF#8)) := by decide +kernel

theorem witness_DescriptorRegionRoundTrip :
    ∀ d ∈ ([(0x0A#8, longBody), (0xFF#8, [])] : List (Byte × Bytes)), d.2.length < 256 := by decide +kernel

/-- a command word in `READY`, in `IN_NOTIFY`, and due inside a batch -/
theorem witness_StepRunsInstruction_cmd :
    (hosted .ready (.cmd 0x0600000000000000) none).host = [⟨.cmd 0x0600000000000000, none⟩] ∧
      ((hosted .ready (.cmd 0x0600000000000000) none).phase ≠ .inBatch ∨ (none : Option Nat) = some 0) ∧
      ((hosted .inNotify (.cmd 0x0600000000000000) (some 7)).phase ≠ .inBatch ∨ some 7 = some 0) ∧
      ((hosted .inBatch (.cmd 0x0600000000000000) (some 0)).phase ≠ .inBatch ∨ some 0 = some 0) ∧
      decodeCmd 0x0600000000000000 = .ok .getErrors := by decide +kernel

/-- a batch and an acknowledgement -/
theorem witness_StepRunsInstruction_ports :
    (hosted .ready (.batch []) none).host = [⟨.batch [], none⟩] ∧ (hosted .ready (.batch []) none).phase ≠ .inBatch ∧
      (hosted .inNotify .ack none).host = [⟨.ack, none⟩] ∧ (hosted .inNotify .ack none).phase ≠ .inBatch := by decide +kernel

theorem witness_StepRunsInstruction_unit :
    (running [.unit (.drain 0)]).phase = .inBatch ∧ (running [.unit (.drain 0)]).takeAction = none ∧
      (running [.unit (.drain 0)]).work = .unit (.drain 0) :: [] ∧ decode {} (.drain 0) = .ok (.secDrain 0) := by decide +kernel

/-- a host action that is not due yet leaves the engine running -/
theorem witness_StepRunsInstruction_waiting :
    (hosted .inBatch .ack (some 1)).phase = .inBatch ∧ (hosted .inBatch .ack (some 1)).takeAction = none ∧
      (hosted .inBatch .ack none).takeAction = none := by decide +kernel

theorem witness_StepRunsInstruction_region :
    (running [.region .si (hx [0x52, 1, 7])]).takeAction = none ∧
      (running [.region .si (hx [0x52, 1, 7])]).work = .region .si (hx [0x52, 1, 7]) :: [] ∧
      nextDescriptor {} .si (hx [0x52, 1, 7]) = some (.descStreamId (hx [7]), []) := by decide +kernel

theorem witness_StepRunsInstruction_packet :
    let s := streaming false (hx [0] ++ packet [0x47, 0, 0, 0x1F]) 1
    s.phase = .inBatch ∧ s.takeAction = none ∧ s.work = [] ∧
      decodePacket s.cfg.syncByte ((s.stream.drop s.pc).take 188) =
        .ok (.tspktPl ⟨false, false, false, 0, 0, 15⟩ (List.replicate 184 0xFF#8)) := by decide +kernel

theorem witness_StepRunsInstruction_endPacket :
    (running [.endPacket]).phase = .inBatch ∧ (running [.endPacket]).takeAction = none ∧
      (running [.endPacket]).work = .endPacket :: [] := by decide +kernel

/-- a packet on the PCR PID without a PCR (V-PCR-8), and an empty section -/
theorem witness_StepRunsInstruction_no_instruction :
    let p := packet [0x47, 0x01, 0x00, 0x20, 0xB7, 0x00]
    (running [.unit (.pcrPacket p)]).phase = .inBatch ∧ (running [.unit (.pcrPacket p)]).takeAction = none ∧
      (running [.unit (.pcrPacket p)]).work = .unit (.pcrPacket p) :: [] ∧ decode {} (.pcrPacket p) = .error .noPcr ∧
      (running [.unit (.table 0 [] [])]).takeAction = none ∧ decode {} (.table 0 [] []) = .error .emptySection := by decide +kernel

/-- a region at its end, and one that holds no whole descriptor -/
theorem witness_StepRunsInstruction_region_ends :
    ∀ r ∈ [[], hx [0x52, 1]], (running [.region .si r]).phase = .inBatch ∧ (running [.region .si r]).takeAction = none ∧
      (running [.region .si r]).work = .region .si r :: [] ∧ nextDescriptor {} .si r = none := by decide +kernel

/-- with nothing after the pointer position, and with the first byte of a section -/
theorem witness_StepRunsInstruction_restart :
    ∀ new ∈ [[], hx [0x00]], (running [.restart 0 new, .endPacket]).phase = .inBatch ∧
      (running [.restart 0 new, .endPacket]).takeAction = none ∧
      (running [.restart 0 new, .endPacket]).work = .restart 0 new :: [.endPacket] ∧
      Memory.wf (running [.restart 0 new, .endPacket]) = true := by decide +kernel

theorem witness_StallAndPowerOn :
    ((stalled .pat).phase ≠ .inBatch ∧ (stalled .pat).host = []) ∧
      ((hosted .inBatch .powerOn (some 0)).host = [⟨.powerOn, some 0⟩] ∧
        ((hosted .inBatch .powerOn (some 0)).phase ≠ .inBatch ∨ some 0 = some 0)) := by decide +kernel

/-- no sync byte at the cursor, here the last byte of the batch -/
theorem witness_FramingTurns_sync :
    let s := streaming false (hx [0x47, 0x46]) 1
    s.phase = .inBatch ∧ s.takeAction = none ∧ s.work = [] ∧ s.pc < s.stream.length ∧
      s.stream[s.pc]? ≠ some s.cfg.syncByte := by decide +kernel

/-- 187 bytes of a packet, and one, with and without `XBUF` -/
theorem witness_FramingTurns_trunc :
    ∀ x ∈ [false, true], ∀ n ∈ [0, 186],
      let s := streaming x (hx [0x47] ++ List.replicate n 0#8) 0
      s.phase = .inBatch ∧ s.takeAction = none ∧ s.work = [] ∧ s.pc < s.stream.length ∧
        s.stream[s.pc]? = some s.cfg.syncByte ∧ s.stream.length - s.pc < 188 := by decide +kernel

theorem witness_FramingTurns_end :
    ∀ pc ∈ [1, 2], let s := streaming false (hx [0x47]) pc
      s.phase = .inBatch ∧ s.takeAction = none ∧ s.work = [] ∧ s.stream.length ≤ s.pc := by decide +kernel

/-- the null PID, of a packet of each kind -/
theorem witness_UnroutedPacketBatch :
    ∀ b ∈ [0x00, 0x10, 0x20, 0x30],
      let p := packet [0x47, 0x1F, 0xFF, b]
      let s : State := { host := [⟨.batch p, none⟩] }
      s.phase = .ready ∧ s.carry = [] ∧ s.host = [⟨.batch p, none⟩] ∧ (decodePacket s.cfg.syncByte p).toOption.isSome = true ∧
        s.bind.pcr.is (headOf (u32 p 0)).pid = false ∧ s.bind.ebu.is (headOf (u32 p 0)).pid = false ∧
        (s.ctxOf (headOf (u32 p 0)).pid).state = .idle ∧ isTablePid s (headOf (u32 p 0)).pid = false := by decide +kernel

/-- A PAT section of 182 bytes, the longest that one packet holds whole: 8 bytes, 42 programs, 2 bytes that are no
program, the CRC. -/
def pat182 : Bytes :=
  let b := hx [0x00, 0xB0, 179, 0x00, 0x01, 0xC1, 0x00, 0x00] ++ List.replicate 170 0xE1#8
  b ++ be32 (crc32 {} b)

/-- The host's batch of one packet with a whole section, and the acknowledgement. -/
def patBatch (sec : Bytes) : State :=
  { cbEn := 1,
    host := [⟨.batch (packetBytes 0x47#8 1#2 ⟨false, true, false, 0, 0, 5⟩
      (0#8 :: sec ++ List.replicate (183 - sec.length) 0xFF#8)), none⟩, ⟨.ack, none⟩] }

/-- PAT-1 -/
theorem witness_PatPacketBatch :
    let s := patBatch pat1
    (s.phase = .ready ∧ s.carry = [] ∧ s.work = [] ∧ (0 : Pid) = s.cfg.pidPat ∧ s.bind.pcr.is 0 = false ∧
      s.bind.ebu.is 0 = false ∧ s.ctxOf 0 = {}) ∧
      (Memory.wf s = true ∧ s.cbEnabled .pat = true ∧ s.pat.valid = false ∧
        s.cfg.stuffingIds.contains (byteAt pat1 0) = false) ∧
      (accepted s.cfg .pat (byteAt pat1 0) = true ∧ byteAt pat1 0 ≠ 0xFF#8 ∧ wholeSection pat1 = true ∧ pat1.length ≤ 182 ∧ crcValid s.cfg pat1 = true ∧
        (parsePat s.cfg pat1).isSome = true) := by decide +kernel

/-- the longest section -/
theorem witness_PatPacketBatch_longest :
    accepted {} .pat (byteAt pat182 0) = true ∧ wholeSection pat182 = true ∧ pat182.length ≤ 182 ∧ (parsePat {} pat182).isSome = true :=
  by decide +kernel

/-- (its CRC is not evaluated here: a configuration that exempts `table_id` 0 meets the premise as well) -/
theorem witness_PatPacketBatch_longest_crc :
    crcValid { crcExempt := [0#8] } pat182 = true ∧ (parsePat { crcExempt := [0#8] } pat182).isSome = true := by decide +kernel

theorem witness_RegionRunIsDescList :
    (running [.region .ait (hx [0x02, 0, 0x10])]).phase = .inBatch ∧ (running [.region .ait (hx [0x02, 0, 0x10])]).host = [] ∧
      (running [.region .ait (hx [0x02, 0, 0x10])]).work = .region .ait (hx [0x02, 0, 0x10]) :: [] := by decide +kernel

/-- A batch in progress: a counter at its maximum, the first byte of a section in a buffer, a PAT committed, an open
teletext page, and a section of its PID still to be drained. -/
def busy : State :=
  { cfg := { cntW := 2 }, packets := 3, errors := 3, phase := .inBatch, pcr := ⟨true, 5⟩,
    ctx := [(0, ⟨.accumulating, [0#8], true, 3⟩)], pat := { valid := true }, ebu := [(0, ⟨true, [⟨1, []⟩]⟩)],
    work := [.unit (.drain 0), .endPacket] }

theorem busy_inv : Inv busy := by
  refine ⟨by decide, by decide, by decide, by decide, by decide, ?_, ?_, ⟨?_, ?_, ?_, ?_, ?_, ?_, ?_⟩, ?_, by decide, ?_,
    by decide, by decide, by decide⟩
  · intro p; simp only [busy, State.ctxOf, SMap.get]; split <;> simp
  · intro k; simp only [busy, State.pageOf, SMap.get]; split <;> simp
  all_goals simp [busy, State.descLists]

theorem busy_bufInv : BufInv busy := by
  refine ⟨?_, ?_, by decide, ?_, by decide⟩
  · intro p; simp only [busy, State.ctxOf, SMap.get]; split
    · exact .inl (.inr ⟨rfl, by decide, by decide, by decide⟩)
    · exact .inl (.inl ⟨rfl, rfl⟩)
  · simp [busy, Work.fits]
  · intro w h; simp only [busy, List.head?_cons, Option.some.injEq] at h; subst h; simp [Work.carriesPayload]

theorem witness_InvEveryStep : Inv busy ∧ ∃ t, step busy = .next t := ⟨busy_inv, _, rfl⟩

theorem witness_BufInvEveryStep : Inv busy ∧ BufInv busy ∧ ∃ t, step busy = .next t := ⟨busy_inv, busy_bufInv, _, rfl⟩

theorem witness_BufferBound :
    BufInv busy ∧ BufInv State.reset ∧ (State.reset.work = [] ∨ State.reset.work = [.endPacket]) := by
  refine ⟨busy_bufInv, ⟨?_, ?_, ?_, ?_, ?_⟩, .inl rfl⟩ <;>
    simp [State.reset, State.ctxOf, SMap.get, Ctx.settled]

/-- a packet is counted; a jump is an error -/
theorem witness_CounterSources :
    (∃ t, exec (.tspktRsv ⟨false, false, false, 0, 0, 0⟩ []) {} = .next t) ∧
      Instr.tspktRsv ⟨false, false, false, 0, 0, 0⟩ [] ≠ .reset ∧
      ∃ t, exec (.secCrc 0 []) {} = .next t ∧ t.errors ≠ ({} : State).errors := by
  refine ⟨⟨_, rfl⟩, by decide, _, rfl, by decide⟩

theorem witness_ConfigurationFrame :
    (∃ t, exec (.setPidDsmcc 1) {} = .next t ∧ t.bind.dsmcc ≠ ({} : State).bind.dsmcc) ∧
      (∃ t, exec (.setPidAit 1) {} = .next t ∧ t.bind.ait ≠ ({} : State).bind.ait) ∧
      (∃ t, exec (.setPidPcr 1) {} = .next t ∧ t.bind.pcr ≠ ({} : State).bind.pcr) ∧
      (∃ t, exec (.setPidEbu 1) {} = .next t ∧ t.bind.ebu ≠ ({} : State).bind.ebu) ∧
      ∃ t, exec (.registerCb .ebu) {} = .next t ∧ t.cbEn ≠ ({} : State).cbEn := by
  refine ⟨⟨_, rfl, by decide⟩, ⟨_, rfl, by decide⟩, ⟨_, rfl, by decide⟩, ⟨_, rfl, by decide⟩, _, rfl, by decide⟩

theorem witness_NotifySources :
    ∃ t, exec (.pcrDecode 0 7 0) { cbEn := 0x100 } = .next t ∧ ({ cbEn := 0x100 } : State).phase ≠ .inNotify ∧
      t.phase = .inNotify := ⟨_, rfl, by decide, by decide⟩

theorem witness_DecodedStateFrame :
    (∃ t, exec (.secPat pat1) {} = .next t ∧ t.pat ≠ ({} : State).pat) ∧
      (∃ t, exec (.secPmt pmt1) {} = .next t ∧ t.pmt ≠ ({} : State).pmt) ∧
      (∃ t, exec (.secNit nit1) {} = .next t ∧ t.nit ≠ ({} : State).nit) ∧
      (∃ t, exec (.secSdt sdt1) {} = .next t ∧ t.sdt ≠ ({} : State).sdt) ∧
      (∃ t, exec (.secEit eit1) {} = .next t ∧ t.eit ≠ ({} : State).eit) ∧
      (∃ t, exec (.secTdt tdt1) {} = .next t ∧ t.tdt ≠ ({} : State).tdt) ∧
      (∃ t, exec (.secAit ait1) {} = .next t ∧ t.ait ≠ ({} : State).ait) ∧
      (∃ t, exec (.secDsmcc dsm1) { cfg := { dsmccRule := .never } } = .next t ∧ t.dsmcc ≠ ({} : State).dsmcc) ∧
      (∃ t, exec (.pcrDecode 0 7 0) {} = .next t ∧ t.pcr ≠ ({} : State).pcr) ∧
      ∃ t, exec (.ebuHeader ⟨0, 0, 0⟩) {} = .next t ∧ t.ebu ≠ ({} : State).ebu := by
  refine ⟨⟨_, rfl, ?_⟩, ⟨_, rfl, ?_⟩, ⟨_, rfl, ?_⟩, ⟨_, rfl, ?_⟩, ⟨_, rfl, ?_⟩, ⟨_, rfl, ?_⟩, ⟨_, rfl, ?_⟩, ⟨_, rfl, ?_⟩,
    ⟨_, rfl, ?_⟩, ⟨_, rfl, ?_⟩⟩ <;> decide +kernel

theorem witness_NoStoreNoChange :
    ([.getErrors, .registerCb .pat, .tspktPl ⟨false, false, false, 0, 0, 0⟩ [], .pcrDecode 0 7 0, .secCrc 0 pat1, .secPat pat1,
      .descCa []] : List Instr).all storesNothing = true ∧ ∃ t, exec (.secPat pat1) {} = .next t := ⟨by decide +kernel, _, rfl⟩

/-- the byte next to the bytes stored: the same place of the next PID, of another unit, of another page -/
theorem witness_StoresOnlyThere :
    Memory.wf busy = true ∧ (∀ k, MemAddr.secbuf 1 0 ≠ .secbuf 0 k) ∧ (∃ t, exec (.secAppend 0 [1]) busy = .next t) ∧
      (∀ v i j k, MemAddr.desc .nit 0 0 0 0 ≠ .desc .pmt v i j k) ∧ (∃ t, exec (.secPmt pmt1) busy = .next t) ∧
      (∀ j k, MemAddr.secbuf 0 0 ≠ .dsmcc j k) ∧ (∃ t, exec (.secDsmcc dsm1) busy = .next t) ∧
      (∀ j k, MemAddr.ebu ⟨0, 0, 1⟩ 0 0 ≠ .ebu ⟨0, 0, 0⟩ j k) ∧ ∃ t, exec (.ebuLine ⟨0, 0, 0⟩ 1 []) busy = .next t := by
  refine ⟨by decide, ?_, ⟨_, rfl⟩, ?_, ⟨_, rfl⟩, ?_, ⟨_, rfl⟩, ?_, _, rfl⟩ <;> simp

/-- the first and the last slot -/
theorem witness_RaiseAndNotify :
    ({ cbEn := 1 } : State).cbEn.getLsbD (unitNumber .pat).toNat = true ∧
      ({ cbEn := 0x200 } : State).cbEn.getLsbD (unitNumber .ebu).toNat = true ∧
      ({ cbEn := 0x1FF } : State).cbEn.getLsbD (unitNumber .ebu).toNat = false := by decide +kernel

theorem witness_AckReturns :
    busy.phase ≠ .inNotify ∧ ((stalled .pcr).phase = .inNotify ∧ (stalled .pcr).pending ≠ .ebu) ∧
      (({ stalled .ebu with ebuDone := some ⟨0, 0, 0⟩, ebu := busy.ebu } : State).phase = .inNotify ∧
        Memory.wf { stalled .ebu with ebuDone := some ⟨0, 0, 0⟩, ebu := busy.ebu } = true) := by decide +kernel

theorem witness_ResetClears : afterP3.phase = .ready ∧ afterP3.pat.valid = true := by decide +kernel

/-- the lowest and the highest PID that is free, a fixed table PID, and a PID another role holds -/
theorem witness_SetPidBinds :
    let s : State := { bind := { dsmcc := ⟨true, 1⟩, ait := ⟨true, 2⟩, pcr := ⟨true, 3⟩, ebu := ⟨true, 4⟩ } }
    s.phase = .ready ∧ (∀ p ∈ [0x1FFF#13, 5#13], p ∉ [s.cfg.pidPat, s.cfg.pidNit, s.cfg.pidSdt, s.cfg.pidEit, s.cfg.pidTdt] ∧
      (∀ b ∈ [s.bind.ait, s.bind.pcr, s.bind.ebu], ¬(b.valid = true ∧ b.pid = p)) ∧
      (∀ b ∈ [s.bind.dsmcc, s.bind.pcr, s.bind.ebu], ¬(b.valid = true ∧ b.pid = p)) ∧
      (∀ b ∈ [s.bind.dsmcc, s.bind.ait, s.bind.ebu], ¬(b.valid = true ∧ b.pid = p)) ∧
      ∀ b ∈ [s.bind.dsmcc, s.bind.ait, s.bind.pcr], ¬(b.valid = true ∧ b.pid = p)) ∧
      (∀ p ∈ [0#13, 0x10#13, 0x11#13, 0x12#13, 0x14#13], p ∈ [s.cfg.pidPat, s.cfg.pidNit, s.cfg.pidSdt, s.cfg.pidEit, s.cfg.pidTdt]) ∧
      s.bind.dsmcc = ⟨true, 1⟩ ∧ s.bind.ait = ⟨true, 2⟩ ∧ s.bind.pcr = ⟨true, 3⟩ ∧ s.bind.ebu = ⟨true, 4⟩ := by simp

theorem witness_SimpleReads :
    (stalled .pat).phase ≠ .inBatch ∧ afterP1.phase ≠ .inBatch ∧ afterP1.phase = .ready := by decide +kernel

theorem witness_SlotCommands : afterP1.phase = .ready := by decide +kernel

theorem witness_PhaseLegality :
    (stalled .pat).phase ≠ .ready ∧ busy.phase ≠ .ready ∧ (busy.phase = .inBatch ∧ decodeCmd 0x0700000000000000 = .ok .getPackets) ∧
      decodeCmd 0x0100000000000001 = .error .unusedFieldSet ∧ (hosted .ready (.cmd 0x0100000000000001) none).phase = .ready ∧
      (hosted .inBatch (.cmd 0x0100000000000001) (some 0)).phase = .inBatch := by decide +kernel

/-- the last entry of the list and the ordinal after it; every table when nothing is decoded -/
theorem witness_GetFieldPat :
    afterP1.phase ≠ .inBatch ∧ afterP1.pat.valid = true ∧ afterP1.pat.programs[(0#16).toNat]? = some ⟨1, 0x1000⟩ ∧
      afterP1.pat.programs.length ≤ (1#16).toNat ∧
      ∀ u ∈ [UnitId.pat, .pmt, .nit, .sdt, .eit, .tdt, .ait], ({} : State).tableValid u = false := by decide +kernel

/-- every table decoded; both pages, and the ordinal after them; the line of the first, and the ordinal after it; what is
no list at the boundaries of its clause -/
theorem witness_FieldAndListReads :
    fullState.phase ≠ .inBatch ∧
      (∀ u ∈ [UnitId.pat, .pmt, .nit, .sdt, .eit, .tdt, .ait], fullState.tableValid u = true ∧ ({} : State).tableValid u = false) ∧
      fullState.ebu[(0#16).toNat]? = some (keyIndex ⟨1, 2, 3⟩, ⟨true, [⟨1, [0x41#8]⟩]⟩) ∧
      fullState.ebu[(1#16).toNat]? = some (keyIndex ⟨1, 3, 0⟩, ⟨true, []⟩) ∧ fullState.ebu.length ≤ (2#16).toNat ∧
      Memory.wf fullState = true ∧
      (∀ c ∈ [(UnitId.tdt, 0x10#8), (.pcr, 0x10#8), (.ebu, 0x13#8), (.pat, 0x14#8), (.pmt, 0x0F#8)],
        (c.2 ≠ 0x10#8 ∨ c.1 = .tdt ∨ c.1 = .pcr) ∧ ¬(c.1 = .ebu ∧ c.2 = 0x14#8)) := by decide +kernel

/-- a path past the last entry, a selector the unit lacks, and a table never decoded -/
theorem witness_DescriptorReads_no_list :
    afterP3.phase ≠ .inBatch ∧ (0x21#8 = 0x20#8 → (2#16) = 0) ∧ resolve afterP3 .pmt 0x21#8 (2#16).toNat = none ∧
      (0x20#8 = 0x20#8 → (0#16) = 0) ∧ resolve fullState .sdt 0x20#8 (0#16).toNat = none ∧
      resolve afterP3 .nit 0x20#8 (0#16).toNat = none := by decide +kernel

/-- each list named, and the paths that name none -/
theorem witness_DescriptorReads_paths :
    (∀ u ∈ [UnitId.pmt, .nit, .sdt, .eit, .ait], fullState.tableValid u = true ∧ ({} : State).tableValid u = false ∧
      (resolve fullState u 0x21#8 0).isSome = true) ∧
      ∀ c ∈ [(UnitId.sdt, 0x20#8), (.eit, 0x20#8), (.pat, 0x21#8), (.pmt, 0x1F#8), (.pmt, 0x22#8)],
        c ∉ [(UnitId.pmt, 0x20#8), (.pmt, 0x21#8), (.nit, 0x20#8), (.nit, 0x21#8), (.sdt, 0x21#8), (.eit, 0x21#8), (.ait, 0x20#8),
          (.ait, 0x21#8)] := by decide +kernel

/-- an outer list, and an inner one of one descriptor: its ordinal 0 and the ordinal after it -/
theorem witness_DescriptorReads :
    afterP3.phase ≠ .inBatch ∧ (0x20#8 = 0x20#8 → (0#16) = 0) ∧ resolve afterP3 .pmt 0x20#8 (0#16).toNat = some [] ∧
      (0x21#8 = 0x20#8 → (1#16) = 0) ∧
      ∃ d, resolve afterP3 .pmt 0x21#8 (1#16).toNat = some [d] ∧ [d][(0#12).toNat]? = some d ∧ [d].length ≤ (1#12).toNat ∧
        d.tag = 0x0A#8 ∧ (([d].take 0).filter (·.tag == 0x0A#8)).length = (0#12).toNat ∧
        ([d].filter (·.tag == 0x0B#8)).length ≤ (0#12).toNat :=
  ⟨by decide +kernel, by decide, by decide +kernel, by decide, mkDescriptor 0x0A (hx [0x65, 0x6E, 0x67, 0])
    (infoOf {} .si 0x0A (hx [0x65, 0x6E, 0x67, 0])), by decide +kernel⟩

/-- a step that keeps it, and the two that end it -/
theorem witness_DsmccStaysComplete :
    (stalled .dsmcc).phase ≠ .inBatch ∧
      (∃ t, step { busy with dsmcc := ⟨.complete, []⟩ } = .next t) ∧
      (∃ t, step { dsmcc := ⟨.complete, []⟩, host := [⟨.powerOn, none⟩] } = .next t ∧ t.dsmcc.state ≠ .complete) ∧
      ∃ t, step { dsmcc := ⟨.complete, []⟩, host := [⟨.cmd 0x0100000000000000, none⟩] } = .next t ∧ t.dsmcc.state ≠ .complete := by
  refine ⟨by decide, ⟨_, rfl⟩, ⟨_, rfl, by decide⟩, _, rfl, by decide +kernel⟩

theorem witness_ProcessStarts : ({ cfg := { xbuf := true }, carry := hx [0x47] } : State).phase = .ready := by decide

/-- adaptation_field_length 0, 183 and 184 -/
theorem witness_LatchAndPayload :
    ∀ l ∈ [0x00, 0xB7, 0xB8], ∃ rest : Bytes, rest.length = 184 ∧
      packet [0x47, 0x00, 0x64, 0x3F, l] = packetBytes 0x47 3#2 ⟨false, false, false, 0x64, 0, 15⟩ rest := by
  intro l hl; exact ⟨hx [l] ++ List.replicate 183 0xFF#8, by rw [List.length_append, List.length_replicate]; rfl, by revert l; decide +kernel⟩

/-- a PCR PID, an EBU PID, a PID with a section in flight, a table PID, and none -/
theorem witness_PacketRouting :
    let s : State := { bind := { pcr := ⟨true, 1⟩, ebu := ⟨true, 2⟩ }, ctx := [(3, ⟨.accumulating, [0#8], true, 3⟩)] }
    (s.bind.pcr.valid = true ∧ s.bind.pcr.pid = 1) ∧ (s.bind.ebu.valid = true ∧ s.bind.ebu.pid = 2) ∧
      ((s.ctxOf 3).state = .accumulating ∧ isTablePid s 3 = false) ∧ (isTablePid s 0 = true) ∧
      ((s.ctxOf 0x1FFF).state = .idle ∧ isTablePid s 0x1FFF = false) := by decide +kernel

/-- a duplicate; the first packet; the successor, also across 15; a jump by 2 and to the counter before -/
theorem witness_ContinuityCheck :
    let s : BitVec 4 → State := fun cc => { busy with hdr := { cc := cc } }
    Memory.wf busy = true ∧ ((s 3).ctxOf 0).ccValid = true ∧ (s 3).hdr.cc = ((s 3).ctxOf 0).lastCc ∧
      (({} : State).ctxOf 0).ccValid = false ∧ (s 4).hdr.cc.toNat = (((s 4).ctxOf 0).lastCc.toNat + 1) % 16 ∧
      (0#4).toNat = ((15#4).toNat + 1) % 16 ∧
      (∀ cc ∈ [5#4, 2#4], (s cc).hdr.cc ≠ ((s cc).ctxOf 0).lastCc ∧
        (s cc).hdr.cc.toNat ≠ (((s cc).ctxOf 0).lastCc.toNat + 1) % 16) := by decide +kernel

/-- a pointer to the last byte, and one just beyond it -/
theorem witness_PayloadStart :
    Memory.wf busy = true ∧ (busy.ctxOf 0).state = .accumulating ∧ (busy.ctxOf 1).state = .idle ∧
      (1#8).toNat < (hx [0xA0, 0xA1]).length ∧ (hx [0xA0, 0xA1]).length ≤ (2#8).toNat := by decide +kernel

theorem witness_PayloadAppend :
    Memory.wf busy = true ∧ (busy.ctxOf 1).state = .idle ∧ (busy.ctxOf 0).state = .accumulating := by decide +kernel

/-- an empty buffer; padding; 2 bytes, and a section one byte short; a whole section with nothing and with padding behind -/
theorem witness_DrainTurn :
    Memory.wf busy = true ∧ (busy.ctxOf 1).buf = [] ∧ ((ctx0 ⟨.accumulating, hx [0xFF], true, 0⟩ 0).ctxOf 0).buf = hx [0xFF] ∧
      (∀ b ∈ [pat1.take 2, pat1.take 15], b ≠ [] ∧ byteAt b 0 ≠ 0xFF#8 ∧
        (b.length < 3 ∨ b.length < 3 + ((u16 b 1).extractLsb' 0 12).toNat)) ∧
      (∀ r ∈ [[], hx [0xFF]], Memory.wf (ctx0 ⟨.accumulating, pat1 ++ r, true, 0⟩ 0) = true ∧
        ((ctx0 ⟨.accumulating, pat1 ++ r, true, 0⟩ 0).ctxOf 0).buf = pat1 ++ r) ∧
      3 ≤ pat1.length ∧ pat1.length = 3 + ((u16 pat1 1).extractLsb' 0 12).toNat ∧ byteAt pat1 0 ≠ 0xFF#8 := by decide +kernel

theorem witness_DroppedSections : Memory.wf busy = true := by decide

/-- an exempt table_id; the shortest section that carries a CRC, and 6 bytes; a CRC that differs -/
theorem witness_CrcCheck :
    let s : State := { cfg := { crcExempt := [0x70#8] } }
    byteAt tdt1 0 ∉ s.cfg.stuffingIds ∧ byteAt tdt1 0 ∈ s.cfg.crcExempt ∧ 3 ≤ (hx [0, 0x70, 4]).length ∧
      byteAt (hx [0, 0x70, 4] ++ be32 (crc32 s.cfg (hx [0, 0x70, 4]))) 0 ∉ s.cfg.stuffingIds ∧
      (∀ sec ∈ [hx [0, 0x70, 3, 0, 0, 0], pat1.set 4 2#8], byteAt sec 0 ∉ s.cfg.stuffingIds ∧ byteAt sec 0 ∉ s.cfg.crcExempt ∧
        (sec.length < 7 ∨ crc32 s.cfg (sec.take (sec.length - 4)) ≠ u32 sec (sec.length - 4))) := by decide +kernel

theorem witness_CrcDetectsOneByte : ({} : Config).crcPoly.getLsbD 0 = true ∧ (0x01#8 : Byte) ≠ 0x02#8 := by decide

/-- a section its PID has a role for, and one it has none for -/
theorem witness_DispatchByRole :
    (byteAt pat1 0 ≠ 0xFF#8 ∧ byteAt pat1 0 ∉ ({} : State).cfg.stuffingIds ∧ pat1 ≠ []) ∧
      (hasRole {} 0 .pat = true ∧ accepted {} .pat (byteAt pat1 0) = true) ∧
      (∀ r ∈ allRoles, hasRole {} 0x11 r = true → accepted {} r (byteAt pat1 0) = false) := by decide +kernel

/-- an entry that just fits, and one that just does not -/
theorem witness_EntryLoop : 1 ≤ 4 ∧ (∀ p, 1 ≤ (fun _ : Nat => 4) p) ∧ 12 ≤ 16 + 8 ∧ 8 + 4 ≤ 12 ∧ ¬ 9 + 4 ≤ 12 := by
  refine ⟨by decide, fun _ => Nat.le_of_ble_eq_true rfl, by decide, by decide, by decide⟩

/-- one byte too few for each decoder; the section just committed -/
theorem witness_IgnoredSections :
    (sectionEnd {} (List.replicate 11 0#8) < 8 ∧ sectionEnd {} (List.replicate 15 0#8) < 12 ∧
      sectionEnd {} (List.replicate 13 0#8) < 10 ∧ sectionEnd {} (List.replicate 14 0#8) < 11 ∧
      sectionEnd {} (List.replicate 17 0#8) < 14) ∧
      (afterP1.pat.valid = true ∧ (byteAt pat1 5).extractLsb' 1 5 = afterP1.pat.header.versionNumber ∧
        byteAt pat1 6 = afterP1.pat.header.sectionNumber) ∧
      (∀ s ∈ [nextOf (exec (.secPmt pmt1) {})], (s.map fun t => (t.pmt.valid, t.pmt.header.versionNumber, t.pmt.header.sectionNumber)) =
        some (true, (byteAt pmt1 5).extractLsb' 1 5, byteAt pmt1 6)) ∧
      (∀ s ∈ [nextOf (exec (.secNit nit1) {})], (s.map fun t => (t.nit.valid, t.nit.header.versionNumber, t.nit.header.sectionNumber)) =
        some (true, (byteAt nit1 5).extractLsb' 1 5, byteAt nit1 6)) ∧
      (∀ s ∈ [nextOf (exec (.secSdt sdt1) {})], (s.map fun t => (t.sdt.valid, t.sdt.header.versionNumber, t.sdt.header.sectionNumber)) =
        some (true, (byteAt sdt1 5).extractLsb' 1 5, byteAt sdt1 6)) := by decide +kernel

theorem witness_PatRoundTrip :
    (0#8) ∉ ({} : State).cfg.crcExempt ∧ ({} : State).pat.valid = false ∧
      (1#5 : BitVec 5) ≠ afterP1.pat.header.versionNumber := by decide +kernel

/-- a region of one longest descriptor, an empty one, and one of 4095 bytes -/
theorem witness_PmtRoundTrip :
    (0x02#8) ∉ ({} : State).cfg.crcExempt ∧ ({} : State).pmt.valid = false ∧ regionFits [(0x0A#8, longBody)] ∧ regionFits [] ∧
      regionFits (List.replicate 15 (0x0A#8, longBody) ++ [(0x0A#8, List.replicate 238 0#8)]) := by
  unfold regionFits; decide +kernel

/-- the shortest section of each, and the section of the spec -/
theorem witness_NitSdtCommit :
    (∀ b ∈ [List.replicate 14 0#8, nit1], 10 ≤ sectionEnd ({} : State).cfg b) ∧ ({} : State).nit.valid = false ∧
      (∀ b ∈ [List.replicate 15 0#8, sdt1], 11 ≤ sectionEnd ({} : State).cfg b) ∧ ({} : State).sdt.valid = false ∧
      sectionEnd {} (List.replicate 14 0#8) < 10 + (len12 (List.replicate 14 0#8) 8).toNat + 2 ∧
      10 + (len12 nit1 8).toNat + 2 ≤ sectionEnd {} nit1 := by decide +kernel

theorem witness_EitTdtAitCommit :
    (∀ b ∈ [List.replicate 18 0#8, eit1], 14 ≤ sectionEnd ({} : State).cfg b) ∧
      (∀ b ∈ [List.replicate 12 0#8, tdt1], 8 ≤ sectionEnd ({} : State).cfg b) ∧
      (∀ b ∈ [List.replicate 14 0#8, ait1], 10 ≤ sectionEnd ({} : State).cfg b) ∧
      sectionEnd {} (List.replicate 14 0#8) < 10 + (len12 (List.replicate 14 0#8) 8).toNat + 2 ∧
      10 + (len12 ait1 8).toNat + 2 ≤ sectionEnd {} ait1 := by decide +kernel

/-- the shortest section; a complete collector; a list the predicate does not hold of, and one it holds of -/
theorem witness_DsmccCollects :
    let e : DsmccEntry := ⟨byteAt dsm1 0, u16 dsm1 3, (byteAt dsm1 5).extractLsb' 1 5, byteAt dsm1 6, byteAt dsm1 7, dsm1⟩
    8 ≤ sectionEnd {} (List.replicate 12 0#8) ∧ 8 ≤ sectionEnd {} dsm1 ∧ ({ dsmcc := ⟨.complete, []⟩ } : State).dsmcc.state = .complete ∧
      ({} : State).dsmcc.state = .collecting ∧ dsmccComplete { dsmccRule := .never } [e] = false ∧
      dsmccComplete { dsmccRule := .byNumbers } [e] = true := by decide +kernel

theorem witness_DescriptorAppended : longBody.length < 256 := by decide +kernel

theorem witness_DescriptorStrings : longBody.length < 256 ∧ ([] : Bytes).length < 256 ∧ (0xEF#8).toNat < 0xF0 := by decide +kernel

/-- the item region of R315's example and one of 255 bytes; the longest name -/
theorem witness_DescriptorItems :
    (∀ items ∈ ([[(hx [0x44, 0x69], hx [0x42, 0x6F, 0x62])], [(List.replicate 253 0#8, [])]] : List (List (Bytes × Bytes))),
      (∀ e ∈ items, e.1.length < 256 ∧ e.2.length < 256) ∧
      (items.flatMap fun e => [BitVec.ofNat 8 e.1.length] ++ e.1 ++ [BitVec.ofNat 8 e.2.length] ++ e.2).length < 256) ∧
      longBody.length < 256 ∧ ∀ e ∈ ([(0x656E67#24, longBody)] : List (BitVec 24 × Bytes)), e.2.length < 256 := by decide +kernel

/-- adaptation_field_length 7 and 183, and the values beside them -/
theorem witness_PcrFormula :
    (∀ a ∈ [7#8, 183#8], 7 ≤ a.toNat ∧ 5 + a.toNat ≤ 188) ∧
      ∀ a ∈ [6#8, 184#8], ¬(7 ≤ a.toNat ∧ 5 + a.toNat ≤ 188) := by decide +kernel

theorem witness_EbuAccumulator :
    Memory.wf busy = true ∧ (busy.pageOf ⟨0, 0, 0⟩).isOpen = true ∧ ({ busy with cbEn := 0x200 } : State).cbEnabled .ebu = true ∧
      busy.cbEnabled .ebu = false ∧ (busy.pageOf ⟨15, 0xFF, 0xFFFF⟩).isOpen = false := by decide +kernel

end Sys2Proof.Tests
end

section
/-! Proofs of the family 00_scope.md (R11): every instruction and every step goes on, and what a step does for each
due action of the host and for each head of the engine's work. -/

namespace Sys2Proof.Machine

/-! ## Everything goes on -/

theorem execSecStart_next (pid : Pid) (payload : Bytes) (s : State) : ∃ t, execSecStart pid payload s = .next t := by
  cases payload with
  | nil => exact ⟨s, rfl⟩
  | cons ptr rest => exact ⟨_, rfl⟩

/-- Every instruction gives a next state. Only SEC.START and the table decoders that can fail to parse branch before
they answer, and each branch is a next state; every other meaning is a next state as it is written. -/
theorem exec_next (i : Instr) (s : State) : ∃ t, exec i s = .next t := by
  cases i with
  | secStart pid payload => exact execSecStart_next pid payload s
  | secPat | secPmt | secNit | secSdt | secEit | secTdt | secAit =>
    simp only [exec, execSecPat, execSecPmt, execSecNit, execSecSdt, execSecEit, execSecTdt, execSecAit]
    split
    · exact ⟨s, rfl⟩
    · exact ⟨_, rfl⟩
  | _ => exact ⟨_, rfl⟩

theorem hostStep_cmd {w : BitVec 64} {i : Instr} (s : State) (h : decodeCmd w = .ok i) :
    hostStep (.cmd w) s = exec i s := by
  simp [hostStep, h]

theorem hostStep_malformed {w : BitVec 64} {e : DecodeError} (s : State) (h : decodeCmd w = .error e) :
    hostStep (.cmd w) s = malformedWord w s := by
  simp [hostStep, h]

theorem hostStep_next (a : HostAct) (s : State) : ∃ t, hostStep a s = .next t := by
  cases a with
  | cmd w =>
    cases h : decodeCmd w with
    | ok i => exact hostStep_cmd s h ▸ exec_next i s
    | error e => exact ⟨_, hostStep_malformed s h⟩
  | batch bytes => exact exec_next (.process bytes) s
  | ack => exact exec_next .ack s
  | powerOn => exact ⟨_, rfl⟩

theorem engineStep_next (s : State) : ∃ t, engineStep s = .next t := by
  unfold engineStep
  cases s.todo with
  | run i t => exact exec_next i t
  | go t => exact ⟨t, rfl⟩

theorem step_next (s : State) : ∃ t, step s = .next t := by
  unfold step
  split
  · next a t _ => exact hostStep_next a t
  · split
    · exact engineStep_next s.ticked
    · exact ⟨s, rfl⟩

/-- Settles O6: the meaning of each instruction is a next state, and a step is one such meaning, one move of the engine
or nothing. -/
theorem everythingGoesOn : Obligations.EverythingGoesOn := ⟨exec_next, step_next⟩

/-! ## A step of the host -/

/-- The first action of the host is due outside a batch, and in a batch once it has waited. -/
theorem HostItem.due_iff (phase : Phase) (h : HostItem) : h.due phase = true ↔ phase ≠ .inBatch ∨ h.wait = some 0 := by
  simp [HostItem.due]

theorem takeAction_of_due {s : State} {a : HostAct} {n : Option Nat} {rest : List HostItem}
    (hs : s.host = ⟨a, n⟩ :: rest) (hd : s.phase ≠ .inBatch ∨ n = some 0) :
    s.takeAction = some (a, { s with host := rest }) := by
  have due : HostItem.due s.phase ⟨a, n⟩ = true := (HostItem.due_iff _ _).2 hd
  simp [State.takeAction, hs, due]

/-- A due action of the host is what the step does. -/
theorem step_host {s : State} {a : HostAct} {n : Option Nat} {rest : List HostItem}
    (hs : s.host = ⟨a, n⟩ :: rest) (hd : s.phase ≠ .inBatch ∨ n = some 0) :
    step s = hostStep a { s with host := rest } := by
  simp [step, takeAction_of_due hs hd]

/-! ## A step of the engine -/

/-- With nothing due from the host in a batch, the step is the engine's. -/
theorem step_engine {s : State} (hp : s.phase = .inBatch) (ha : s.takeAction = none) : step s = engineStep s.ticked := by
  simp [step, hp, ha]

theorem step_run {s t : State} {i : Instr} (hp : s.phase = .inBatch) (ha : s.takeAction = none)
    (h : s.ticked.todo = .run i t) : step s = exec i t := by
  rw [step_engine hp ha, engineStep, h]

theorem step_go {s t : State} (hp : s.phase = .inBatch) (ha : s.takeAction = none)
    (h : s.ticked.todo = .go t) : step s = .next t := by
  rw [step_engine hp ha, engineStep, h]

/-! What the engine finds, one equation for each head of its work. -/

section
variable {s : State} {rest : List Work}

theorem todo_unit {c : Code} {i : Instr} (hw : s.work = .unit c :: rest) (hd : decode s.cfg c = .ok i) :
    s.todo = .run i { s with work := rest } := by
  simp [State.todo, hw, hd]

theorem todo_unit_error {c : Code} {e : DecodeError} (hw : s.work = .unit c :: rest) (hd : decode s.cfg c = .error e) :
    s.todo = .go { s with work := rest } := by
  simp [State.todo, hw, hd]

theorem todo_region {ns : Namespace} {r r' : Bytes} {i : Instr} (hw : s.work = .region ns r :: rest)
    (hd : nextDescriptor s.cfg ns r = some (i, r')) : s.todo = .run i { s with work := .region ns r' :: rest } := by
  simp [State.todo, hw, hd]

theorem todo_region_end {ns : Namespace} {r : Bytes} (hw : s.work = .region ns r :: rest)
    (hd : nextDescriptor s.cfg ns r = none) : s.todo = .go { s with work := rest } := by
  simp [State.todo, hw, hd]

theorem todo_restart {pid : Pid} {new : Bytes} (hw : s.work = .restart pid new :: rest) :
    s.todo = .go (State.restart { s with work := rest } pid new) := by
  simp [State.todo, hw]

theorem todo_endPacket (hw : s.work = .endPacket :: rest) :
    s.todo = .go { s with work := rest, pc := s.pc + packetLength } := by
  simp [State.todo, hw]

theorem todo_packet {i : Instr} (hw : s.work = [])
    (hd : decodePacket s.cfg.syncByte ((s.stream.drop s.pc).take packetLength) = .ok i) :
    s.todo = .run i { s with work := [.endPacket] } := by
  simp [State.todo, hw, State.packetHere, hd]

end

/-! ## The second half of SEC.START (42_section_reassembly_crc.md R212) -/

/-- `restart` changes `work` and `ctx` alone. -/
theorem restart_frame (s : State) (p : Pid) (new : Bytes) :
    s.restart p new = { s with work := if new = [] then s.work else .unit (.drain p) :: s.work,
                               ctx := (s.restart p new).ctx } := by
  obtain ⟨hn, he⟩ | ⟨hn, he⟩ := restart_cases s p new <;> rw [he] <;> simp [hn, State.setCtx, State.push]

theorem ctxOf_restart_same (s : State) (p : Pid) (new : Bytes) (h : Memory.wf s = true) :
    (s.restart p new).ctxOf p = if new = [] then (s.ctxOf p).idled else (s.ctxOf p).filled new := by
  obtain ⟨hn, he⟩ | ⟨hn, he⟩ := restart_cases s p new
  · rw [he, if_pos hn, ctxOf_setCtx_same s p _ h]
  · rw [he, if_neg hn]
    exact ctxOf_setCtx_same s p _ h

theorem ctxOf_restart_other (s : State) (p q : Pid) (new : Bytes) (hq : q ≠ p) (h : Memory.wf s = true) :
    (s.restart p new).ctxOf q = s.ctxOf q := by
  obtain ⟨-, he⟩ | ⟨-, he⟩ := restart_cases s p new <;> rw [he] <;> exact ctxOf_setCtx_other s p q _ hq h

/-- A step that finds the second half of SEC.START: the new section is started, or the context goes `IDLE`. -/
theorem step_restart {s : State} {pid : Pid} {new : Bytes} {rest : List Work} (hp : s.phase = .inBatch)
    (ha : s.takeAction = none) (hw : s.work = .restart pid new :: rest) :
    step s = .next (State.restart { s with work := rest, host := tickHost s.host } pid new) :=
  step_go hp ha (todo_restart hw)

/-- Settles O5: each clause is the step of the host or of the engine at one due action or one head of the work. -/
theorem stepRunsInstruction : Obligations.StepRunsInstruction := by
  refine ⟨?cmd, ?batch, ?ack, ?unit, ?unitError, ?region, ?regionEnd, ?restart, ?packet, ?endPacket⟩
  case cmd =>
    intro s w n rest i hs hd hi
    rw [step_host hs hd, hostStep_cmd _ hi]
  case batch =>
    intro s bytes n rest hs hd
    exact step_host hs hd
  case ack =>
    intro s n rest hs hd
    exact step_host hs hd
  case unit =>
    intro s c rest i hp ha hw hi
    exact step_run hp ha (todo_unit hw hi)
  case unitError =>
    intro s c rest e hp ha hw he
    exact step_go hp ha (todo_unit_error hw he)
  case region =>
    intro s ns r r' rest i hp ha hw hi
    exact step_run hp ha (todo_region hw hi)
  case regionEnd =>
    intro s ns r rest hp ha hw hn
    exact step_go hp ha (todo_region_end hw hn)
  case restart =>
    intro s pid new rest hp ha hw hwf
    exact ⟨_, step_restart hp ha hw, restart_frame _ pid new, ctxOf_restart_same _ pid new hwf,
      fun q hq => ctxOf_restart_other _ pid q new hq hwf⟩
  case packet =>
    intro s i hp ha hw hi
    exact step_run hp ha (todo_packet hw hi)
  case endPacket =>
    intro s rest hp ha hw
    exact step_go hp ha (todo_endPacket hw)

end Sys2Proof.Machine
end

section
/-! Proofs of the family 10_state.md (R20 to R47): the values at power-on, the invariant of the registers and the
stores, what an instruction leaves of the configuration, and the bytes it stores. First the one lemma these rest on:
everything an instruction can do. -/

namespace Sys2Proof.Machine

/-! ## What an instruction can do -/

/-- The instructions that arrive on a port of the host: the commands, `PROCESS` and `ACK` (40_host_commands.md). -/
def hostInstr : Instr → Bool
  | .reset | .setPidDsmcc _ | .setPidAit _ | .setPidPcr _ | .setPidEbu _ | .getErrors | .getPackets => true
  | .registerCb _ | .unregisterCb _ | .getField .. | .getListLen .. | .getDescListLenAll .. => true
  | .getDescListLenForTag .. | .getDescByIndex .. | .getDescByTag .. | .getDescField .. => true
  | .dsmccIsComplete | .dsmccDecode | .process _ | .ack => true
  | _ => false

/-- A part of the stores that hold bytes (10_state.md R33). -/
inductive Place where
  | nowhere
  /-- SECBUF: the context of a PID -/
  | buffer (pid : Pid)
  /-- DESC: the descriptor lists of a unit -/
  | lists (u : UnitId)
  /-- DSMCC -/
  | sections
  /-- EBU: a page -/
  | page (key : EbuKey)
  | everywhere

/-- Where an instruction may store bytes: a reassembler operation in the buffer of its PID (42_section_reassembly_crc.md
R211 to R214, R220), a table decoder in the lists of its unit (43_table_decoders.md R250), an EBU event in the page it
names (45_packet_decoders.md R353). RESET, PROCESS and ACK are not told apart. -/
def placeOf : Instr → Place
  | .reset | .process _ | .ack => .everywhere
  | .secCc pid _ | .secStart pid _ | .secAppend pid _ | .secDrain pid | .secStuff pid => .buffer pid
  | .secPmt _ => .lists .pmt
  | .secNit _ => .lists .nit
  | .secSdt _ => .lists .sdt
  | .secEit _ => .lists .eit
  | .secAit _ => .lists .ait
  | .secDsmcc _ => .sections
  | .ebuHeader key | .ebuLine key _ _ => .page key
  | _ => .nowhere

/-- An `IDLE` context has an empty buffer (42_section_reassembly_crc.md R217). -/
def Ctx.emptyIfIdle (c : Ctx) : Prop := c.state = .idle → c.buf = []

theorem Ctx.emptyIfIdle_idled (c : Ctx) : c.idled.emptyIfIdle := fun _ => rfl

theorem Ctx.emptyIfIdle_filled (c : Ctx) (b : Bytes) : (c.filled b).emptyIfIdle := nofun

theorem Ctx.emptyIfIdle_tracked {c : Ctx} (cc : BitVec 4) (h : c.emptyIfIdle) : (c.tracked cc).emptyIfIdle := h

/-- The next states of an instruction: each constructor gives one, for the instructions it names, and what it does not
write keeps its value. -/
inductive Effect (s : State) : Instr → State → Prop
  /-- a read, or a command refused or rejected: the response alone -/
  | answer {i : Instr} (r : Response) (hi : hostInstr i = true) : Effect s i (s.respond r)
  | cleared (hp : s.phase = .ready) : Effect s .reset (s.cleared.respond .done)
  | boundDsmcc (pid : Pid) :
      Effect s (.setPidDsmcc pid) (State.respond { s with bind := { s.bind with dsmcc := ⟨true, pid⟩ } } .done)
  | boundAit (pid : Pid) :
      Effect s (.setPidAit pid) (State.respond { s with bind := { s.bind with ait := ⟨true, pid⟩ } } .done)
  | boundPcr (pid : Pid) :
      Effect s (.setPidPcr pid) (State.respond { s with bind := { s.bind with pcr := ⟨true, pid⟩ } } .done)
  | boundEbu (pid : Pid) :
      Effect s (.setPidEbu pid) (State.respond { s with bind := { s.bind with ebu := ⟨true, pid⟩ } } .done)
  | slot {i : Instr} (u : UnitId) (on : Bool) (hi : i = .registerCb u ∨ i = .unregisterCb u) :
      Effect s i (State.respond { s with cbEn := cbEnWith s.cbEn u on } .done)
  | batch (bytes : Bytes) (hp : s.phase = .ready) :
      Effect s (.process bytes)
        { s with phase := .inBatch, batchErr := false, stream := (if s.cfg.xbuf then s.carry else []) ++ bytes,
                 carry := [], pc := 0, work := [] }
  | acknowledged (hp : s.phase = .inNotify) : Effect s .ack s.acknowledge
  /-- no effect, or work for the engine alone -/
  | pushed {i : Instr} (w : List Work) (hi : hostInstr i = false) : Effect s i (s.push w)
  | packet {i : Instr} (afc : BitVec 2) (h : PktHead) (rest : Bytes) (w : List Work) (hi : hostInstr i = false) :
      Effect s i ((s.takePacket afc h rest).push w)
  | pcr (pid : Pid) (afl : Byte) (field : BitVec 48) :
      Effect s (.pcrDecode pid afl field) (State.notify { s with pcr := { valid := true, value := pcrValue field } } .pcr)
  | context {i : Instr} (pid : Pid) (c : Ctx) (w : List Work) (hi : placeOf i = .buffer pid)
      (hc : (s.ctxOf pid).emptyIfIdle → c.emptyIfIdle) : Effect s i ((s.setCtx pid c).push w)
  | jumped (pid : Pid) (payload : Bytes) (c : Ctx) (w : List Work) (hc : c.emptyIfIdle) :
      Effect s (.secCc pid payload) (((s.raise .continuity).setCtx pid c).push w)
  | integrity (pid : Pid) (sec : Bytes) : Effect s (.secCrc pid sec) (s.raise .integrity)
  | pat (sec : Bytes) (r : Pat) (hr : parsePat s.cfg sec = some r) :
      Effect s (.secPat sec) (State.notify { s with pat := r } .pat)
  | pmt (sec : Bytes) (r : Pmt) (hr : parsePmt s.cfg sec = some r) :
      Effect s (.secPmt sec) (State.notify { s with pmt := r } .pmt)
  | nit (sec : Bytes) (r : Nit) (hr : parseNit s.cfg sec = some r) :
      Effect s (.secNit sec) (State.notify { s with nit := r } .nit)
  | sdt (sec : Bytes) (r : Sdt) (hr : parseSdt s.cfg sec = some r) :
      Effect s (.secSdt sec) (State.notify { s with sdt := r } .sdt)
  | eit (sec : Bytes) (r : Eit) (hr : parseEit s.cfg sec = some r) :
      Effect s (.secEit sec) (State.notify { s with eit := r } .eit)
  | tdt (sec : Bytes) (r : Tdt) (hr : parseTdt s.cfg sec = some r) :
      Effect s (.secTdt sec) (State.notify { s with tdt := r } .tdt)
  | ait (sec : Bytes) (r : Ait) (hr : parseAit s.cfg sec = some r) :
      Effect s (.secAit sec) (State.notify { s with ait := r } .ait)
  | collected (sec : Bytes) (d : Dsmcc) : Effect s (.secDsmcc sec) { s with dsmcc := d }
  | completed (sec : Bytes) (d : Dsmcc) : Effect s (.secDsmcc sec) (State.notify { s with dsmcc := d } .dsmcc)
  | descriptor {i : Instr} (d : Descriptor) (hi : hostInstr i = false) : Effect s i (s.addDescriptor d)
  /-- a page is opened, cleared unseen, or takes a line -/
  | page {i : Instr} (key : EbuKey) (lines : List EbuLine) (hi : placeOf i = .page key) :
      Effect s i (s.setPage key { isOpen := true, lines := lines })
  | pageDone (key : EbuKey) (ho : (s.pageOf key).isOpen = true) (he : s.cbEnabled .ebu = true) :
      Effect s (.ebuHeader key) (State.notify { s with ebuDone := some key } .ebu)

section
variable {s t u : State} {i : Instr}

theorem eq_of_next (h : (.next s : Result State) = .next t) : t = s := by
  injection h with h
  exact h.symm

/-- An engine instruction without effect. -/
theorem Effect.nothing (hi : hostInstr i = false) : Effect s i s := .pushed [] hi

theorem readCmd_effect {r : Response} (hi : hostInstr i = true) (h : readCmd s r = .next t) : Effect s i t := by
  rcases readCmd_cases h with ⟨-, rfl⟩ | ⟨-, rfl⟩ <;> exact .answer _ hi

/-- A command legal in `READY` only has its effect there and is refused elsewhere. -/
theorem inReady_effect (hi : hostInstr i = true) (ht : s.phase = .ready → Effect s i t) (h : inReady s t = .next u) :
    Effect s i u := by
  rcases inReady_cases h with ⟨hp, rfl⟩ | ⟨-, rfl⟩
  · exact ht hp
  · exact .answer _ hi

theorem setPid_effect {others : List Binding} {pid : Pid} (hi : hostInstr i = true)
    (ht : Effect s i (t.respond .done)) (h : setPid s others pid t = .next u) : Effect s i u := by
  rcases setPid_cases h with ⟨-, -, rfl⟩ | ⟨-, -, -, rfl⟩ | ⟨-, rfl⟩
  · exact .answer _ hi
  · exact ht
  · exact .answer _ hi

theorem restart_effect {pid : Pid} (new : Bytes) (hi : placeOf i = .buffer pid) : Effect s i (s.restart pid new) := by
  rcases restart_cases s pid new with ⟨-, he⟩ | ⟨-, he⟩
  · exact he ▸ .context pid _ [] hi fun _ => Ctx.emptyIfIdle_idled _
  · exact he ▸ .context pid _ _ hi fun _ => Ctx.emptyIfIdle_filled _ _

theorem execSecCc_effect {pid : Pid} {payload : Bytes} (h : execSecCc pid payload s = .next t) :
    Effect s (.secCc pid payload) t := by
  obtain rfl := eq_of_next h
  split
  · exact .nothing rfl
  split
  · exact .jumped _ _ _ _ (Ctx.emptyIfIdle_tracked _ (Ctx.emptyIfIdle_idled _))
  · exact .context _ _ _ rfl (Ctx.emptyIfIdle_tracked _)

theorem execSecStart_effect {pid : Pid} {payload : Bytes} (h : execSecStart pid payload s = .next t) :
    Effect s (.secStart pid payload) t := by
  cases payload with
  | nil => exact eq_of_next h ▸ .nothing rfl
  | cons ptr rest =>
    obtain rfl := eq_of_next h
    split
    · exact .context _ _ _ rfl fun _ => Ctx.emptyIfIdle_filled _ _
    · exact restart_effect _ rfl

theorem execSecAppend_effect {pid : Pid} {payload : Bytes} (h : execSecAppend pid payload s = .next t) :
    Effect s (.secAppend pid payload) t := by
  obtain rfl := eq_of_next h
  split
  · exact .context _ _ _ rfl fun _ => Ctx.emptyIfIdle_filled _ _
  · exact .nothing rfl

theorem execSecDrain_effect {pid : Pid} (h : execSecDrain pid s = .next t) : Effect s (.secDrain pid) t := by
  obtain rfl := eq_of_next h
  split
  · exact .context _ _ [] rfl fun _ => Ctx.emptyIfIdle_idled _
  next hb =>
  split
  · exact .pushed _ rfl
  split
  · exact .nothing rfl
  split
  · exact .nothing rfl
  · exact .context _ _ _ rfl fun hc hidle => absurd (hc hidle) hb

theorem execSecCrc_effect {pid : Pid} {sec : Bytes} (h : execSecCrc pid sec s = .next t) :
    Effect s (.secCrc pid sec) t := by
  obtain rfl := eq_of_next h
  split
  · exact .nothing rfl
  split
  · exact .pushed _ rfl
  · exact .integrity _ _

theorem execSecDsmcc_effect {sec : Bytes} (h : execSecDsmcc sec s = .next t) : Effect s (.secDsmcc sec) t := by
  obtain rfl := eq_of_next h
  split
  · exact .nothing rfl
  rcases processDownload_cases s (dsmccEntry sec) with ⟨-, he⟩ | ⟨-, -, he⟩ | ⟨-, -, he⟩ <;> rw [he]
  · exact .nothing rfl
  · exact .completed _ _
  · exact .collected _ _

theorem openPage_effect {key : EbuKey} (hi : placeOf i = .page key) (ho : (s.pageOf key).isOpen = true)
    (lines : List EbuLine) : Effect s i (s.setPage key { s.pageOf key with lines := lines }) := by
  simp only [ho]
  exact .page key lines hi

theorem execEbuHeader_effect {key : EbuKey} (h : execEbuHeader key s = .next t) : Effect s (.ebuHeader key) t := by
  obtain rfl := eq_of_next h
  split
  next ho =>
    split
    next he => exact .pageDone key ho he
    · exact openPage_effect rfl ho []
  · exact .page key [] rfl

theorem execEbuLine_effect {key : EbuKey} {row : Byte} {data : Bytes} (h : execEbuLine key row data s = .next t) :
    Effect s (.ebuLine key row data) t := by
  obtain rfl := eq_of_next h
  split
  next ho => exact openPage_effect rfl ho _
  · exact .nothing rfl

/-- A table that tracks versions commits a record unless it is a duplicate (43_table_decoders.md R252). -/
theorem unless_duplicate_effect {dup : Bool} (hi : hostInstr i = false) (ht : Effect s i t) :
    Effect s i (if dup then s else t) := by
  cases dup with
  | true => exact .nothing hi
  | false => exact ht

end

/-- Everything an instruction can do. -/
theorem exec_effect {i : Instr} {s t : State} (h : exec i s = .next t) : Effect s i t := by
  cases i with
  | reset => exact inReady_effect rfl .cleared h
  | setPidDsmcc pid => exact setPid_effect rfl (.boundDsmcc pid) h
  | setPidAit pid => exact setPid_effect rfl (.boundAit pid) h
  | setPidPcr pid => exact setPid_effect rfl (.boundPcr pid) h
  | setPidEbu pid => exact setPid_effect rfl (.boundEbu pid) h
  | registerCb u => exact inReady_effect rfl (fun _ => .slot u true (.inl rfl)) h
  | unregisterCb u => exact inReady_effect rfl (fun _ => .slot u false (.inr rfl)) h
  | getErrors | getPackets | getField | getListLen | getDescListLenAll | getDescListLenForTag | getDescByIndex
  | getDescByTag | getDescField | dsmccIsComplete => exact readCmd_effect rfl h
  | dsmccDecode => exact inReady_effect rfl (fun _ => .answer _ rfl) h
  | process bytes => exact inReady_effect rfl (.batch bytes) h
  | ack =>
    obtain rfl := eq_of_next h
    split
    next hp => exact .acknowledged hp
    · exact .answer _ rfl
  | tspktRsv hd rest => exact eq_of_next h ▸ .packet _ hd rest [] rfl
  | tspktPl hd rest | tspktAf hd rest | tspktAfpl hd rest => exact eq_of_next h ▸ .packet _ hd rest _ rfl
  | pcrDecode pid afl field =>
    obtain rfl := eq_of_next h
    split
    · exact .pcr _ _ _
    · exact .nothing rfl
  | secCc => exact execSecCc_effect h
  | secStart => exact execSecStart_effect h
  | secAppend => exact execSecAppend_effect h
  | secDrain => exact execSecDrain_effect h
  | secCrc => exact execSecCrc_effect h
  | secDispatch => exact eq_of_next h ▸ .pushed _ rfl
  | secStuff pid => exact eq_of_next h ▸ .context pid _ [] rfl fun _ => Ctx.emptyIfIdle_idled _
  | secSt | secOther => exact eq_of_next h ▸ .nothing rfl
  | secPat sec =>
    simp only [exec, execSecPat] at h
    split at h
    · exact eq_of_next h ▸ .nothing rfl
    next r hr => exact eq_of_next h ▸ unless_duplicate_effect rfl (.pat sec r hr)
  | secPmt sec =>
    simp only [exec, execSecPmt] at h
    split at h
    · exact eq_of_next h ▸ .nothing rfl
    next r hr => exact eq_of_next h ▸ unless_duplicate_effect rfl (.pmt sec r hr)
  | secNit sec =>
    simp only [exec, execSecNit] at h
    split at h
    · exact eq_of_next h ▸ .nothing rfl
    next r hr => exact eq_of_next h ▸ unless_duplicate_effect rfl (.nit sec r hr)
  | secSdt sec =>
    simp only [exec, execSecSdt] at h
    split at h
    · exact eq_of_next h ▸ .nothing rfl
    next r hr => exact eq_of_next h ▸ unless_duplicate_effect rfl (.sdt sec r hr)
  | secEit sec =>
    simp only [exec, execSecEit] at h
    split at h
    · exact eq_of_next h ▸ .nothing rfl
    next r hr => exact eq_of_next h ▸ .eit sec r hr
  | secTdt sec =>
    simp only [exec, execSecTdt] at h
    split at h
    · exact eq_of_next h ▸ .nothing rfl
    next r hr => exact eq_of_next h ▸ .tdt sec r hr
  | secAit sec =>
    simp only [exec, execSecAit] at h
    split at h
    · exact eq_of_next h ▸ .nothing rfl
    next r hr => exact eq_of_next h ▸ .ait sec r hr
  | secDsmcc => exact execSecDsmcc_effect h
  | ebuHeader => exact execEbuHeader_effect h
  | ebuLine => exact execEbuLine_effect h
  | _ => exact eq_of_next h ▸ .descriptor _ rfl

end Sys2Proof.Machine
end

section
/-! Every step keeps the invariant of the registers and the stores: one rule for each operation on the state, then the
instructions and the moves of the engine by these rules. -/

namespace Sys2Proof.Machine

/-! ## Descriptors of a decoded table (10_state.md R43) -/

/-- Every descriptor of a list is one of its namespace. -/
def listOk (cfg : Config) (ns : Namespace) (l : List Descriptor) : Prop := ∀ d ∈ l, descriptorOk cfg ns d

theorem descriptorOk_mkDescriptor (cfg : Config) (ns : Namespace) (tag : Byte) {body : Bytes} (h : body.length < 256) :
    descriptorOk cfg ns (mkDescriptor tag body (infoOf cfg ns tag body)) :=
  ⟨by simpa [mkDescriptor] using h, rfl⟩

theorem listOk_descList (cfg : Config) (ns : Namespace) (r : Bytes) : listOk cfg ns (descList cfg ns r) := by
  unfold descList
  generalize r.length = fuel
  induction fuel generalizing r with
  | zero => exact List.forall_mem_nil _
  | succ fuel ih =>
    unfold descListFuel
    split
    · exact List.forall_mem_nil _
    next tag body rest hs =>
      exact List.forall_mem_cons.2 ⟨descriptorOk_mkDescriptor cfg ns tag (splitDescriptor_some hs).2, ih rest⟩

/-- Every entry of a loop is the entry at some offset (43_table_decoders.md R253). -/
theorem exists_of_mem_entries {α : Type} {entry : Nat → α} {x : α} {k e : Nat} {size : Nat → Nat} {fuel o : Nat}
    (h : x ∈ entries k e entry size fuel o) : ∃ p, x = entry p := by
  induction fuel generalizing o with
  | zero => cases h
  | succ fuel ih =>
    unfold entries at h
    split at h
    · exact (List.mem_cons.1 h).elim (fun hx => ⟨o, hx⟩) ih
    · cases h

/-! The descriptor lists of each record. -/

def Pmt.listsOk (cfg : Config) (r : Pmt) : Prop :=
  listOk cfg .si r.programInfo ∧ ∀ e ∈ r.streams, listOk cfg .si e.descriptors

def Nit.listsOk (cfg : Config) (r : Nit) : Prop :=
  listOk cfg .si r.networkDescriptors ∧ ∀ e ∈ r.streams, listOk cfg .si e.descriptors

def Sdt.listsOk (cfg : Config) (r : Sdt) : Prop := ∀ e ∈ r.services, listOk cfg .si e.descriptors

def Eit.listsOk (cfg : Config) (r : Eit) : Prop := ∀ e ∈ r.events, listOk cfg .si e.descriptors

def Ait.listsOk (cfg : Config) (r : Ait) : Prop :=
  listOk cfg .ait r.commonDescriptors ∧ ∀ e ∈ r.applications, listOk cfg .ait e.descriptors

/-- The clause `descriptors` of the invariant, record by record. -/
theorem descLists_ok_iff (s : State) : (∀ l ∈ s.descLists, ∀ d ∈ l.2, descriptorOk s.cfg l.1 d) ↔
    s.pmt.listsOk s.cfg ∧ s.nit.listsOk s.cfg ∧ s.sdt.listsOk s.cfg ∧ s.eit.listsOk s.cfg ∧ s.ait.listsOk s.cfg := by
  simp only [State.descLists, Pmt.listsOk, Nit.listsOk, Sdt.listsOk, Eit.listsOk, Ait.listsOk, listOk,
    List.cons_append, List.forall_mem_cons, List.forall_mem_append, List.forall_mem_map]
  tauto

/-! A record that parses is valid, and its descriptor lists are walks of regions. -/

section
variable {cfg : Config} {sec : Bytes}

/-- The record of a section that is long enough (43_table_decoders.md R251). -/
theorem eq_of_guarded {α : Type} {c : Prop} [Decidable c] {x r : α} (h : (if c then none else some x) = some r) :
    r = x :=
  (Option.some.inj (Option.ite_none_left_eq_some.1 h).2).symm

theorem parsePat_valid {r : Pat} (h : parsePat cfg sec = some r) : r.valid = true := by
  obtain rfl := eq_of_guarded h
  exact rfl

theorem parseTdt_valid {r : Tdt} (h : parseTdt cfg sec = some r) : r.valid = true := by
  obtain rfl := eq_of_guarded h
  exact rfl

theorem parsePmt_ok {r : Pmt} (h : parsePmt cfg sec = some r) : r.valid = true ∧ r.listsOk cfg := by
  obtain rfl := eq_of_guarded h
  exact ⟨rfl, listOk_descList _ _ _, fun _ hx => by
    obtain ⟨_, rfl⟩ := exists_of_mem_entries hx
    exact listOk_descList _ _ _⟩

theorem parseNit_ok {r : Nit} (h : parseNit cfg sec = some r) : r.valid = true ∧ r.listsOk cfg := by
  obtain rfl := eq_of_guarded h
  refine ⟨rfl, listOk_descList _ _ _, ?_⟩
  dsimp only
  split
  · intro _ hx
    obtain ⟨_, rfl⟩ := exists_of_mem_entries hx
    exact listOk_descList _ _ _
  · exact List.forall_mem_nil _

theorem parseSdt_ok {r : Sdt} (h : parseSdt cfg sec = some r) : r.valid = true ∧ r.listsOk cfg := by
  obtain rfl := eq_of_guarded h
  exact ⟨rfl, fun _ hx => by
    obtain ⟨_, rfl⟩ := exists_of_mem_entries hx
    exact listOk_descList _ _ _⟩

theorem parseEit_ok {r : Eit} (h : parseEit cfg sec = some r) : r.valid = true ∧ r.listsOk cfg := by
  obtain rfl := eq_of_guarded h
  exact ⟨rfl, fun _ hx => by
    obtain ⟨_, rfl⟩ := exists_of_mem_entries hx
    exact listOk_descList _ _ _⟩

theorem parseAit_ok {r : Ait} (h : parseAit cfg sec = some r) : r.valid = true ∧ r.listsOk cfg := by
  obtain rfl := eq_of_guarded h
  refine ⟨rfl, listOk_descList _ _ _, ?_⟩
  dsimp only
  split
  · intro _ hx
    obtain ⟨_, rfl⟩ := exists_of_mem_entries hx
    exact listOk_descList _ _ _
  · exact List.forall_mem_nil _

end

/-- The largest PCR: 33 bits of base, 9 bits of extension (45_packet_decoders.md R352). -/
theorem pcrValue_le (field : BitVec 48) : (pcrValue field).toNat ≤ pcrMax := by
  have hbase := (field.extractLsb' 15 33).isLt
  have hext := (field.extractLsb' 0 9).isLt
  simp only [pcrValue, pcrMax, BitVec.toNat_add, BitVec.toNat_mul, BitVec.toNat_setWidth, BitVec.toNat_ofNat]
  simp (disch := omega) only [Nat.mod_eq_of_lt]
  omega

/-! ## The invariant, operation by operation -/

/-- After power-on every element has its value of 10_state.md R47. -/
theorem Inv.powerOn (s : State) : Inv s.powerOn where
  memory := Memory.wf_powerOn s
  packets := Nat.zero_le _
  errors := Nat.zero_le _
  pcr := Nat.zero_le _
  pcrUnset _ := rfl
  idle _ _ := rfl
  closed _ _ := rfl
  tables := ⟨fun _ => rfl, fun _ => rfl, fun _ => rfl, fun _ => rfl, fun _ => rfl, fun _ => rfl, fun _ => rfl⟩
  descriptors := by simp [State.descLists, State.reset]
  ebuDone := by simp [State.reset]
  ebuOpen := nofun
  carry := by simp [State.reset, packetLength]
  carrySync h := absurd rfl h
  ready _ := ⟨rfl, rfl, rfl⟩

section
variable {s : State} (h : Inv s)
include h

/-- With no notification of unit 9 outstanding, no page waits for its acknowledgement. -/
theorem Inv.ebuDone_none (hn : s.phase ≠ .inNotify ∨ s.pending ≠ .ebu) : s.ebuDone = none := by
  rw [← Option.not_isSome_iff_eq_none, h.ebuDone]
  tauto

theorem Inv.respond (r : Response) : Inv (s.respond r) := { h with tables := { h.tables with } }

theorem Inv.addDescriptor (d : Descriptor) : Inv (s.addDescriptor d) := { h with tables := { h.tables with } }

theorem Inv.withHost (l : List HostItem) : Inv { s with host := l } := { h with tables := { h.tables with } }

theorem Inv.withBind (b : Bindings) : Inv { s with bind := b } := { h with tables := { h.tables with } }

theorem Inv.withCbEn (c : BitVec 10) : Inv { s with cbEn := c } := { h with tables := { h.tables with } }

theorem Inv.withDsmcc (d : Dsmcc) : Inv { s with dsmcc := d } := { h with tables := { h.tables with } }

theorem Inv.takePacket (afc : BitVec 2) (hd : PktHead) (rest : Bytes) : Inv (s.takePacket afc hd rest) :=
  { h with tables := { h.tables with }, packets := satInc_le _ _ h.packets }

theorem Inv.raise (c : ErrCode) : Inv (s.raise c) :=
  { h with tables := { h.tables with }, errors := satInc_le _ _ h.errors }

theorem Inv.withPcr (field : BitVec 48) : Inv { s with pcr := { valid := true, value := pcrValue field } } :=
  { h with tables := { h.tables with }, pcr := pcrValue_le field, pcrUnset := nofun }

theorem Inv.setCtx (pid : Pid) {c : Ctx} (hc : c.emptyIfIdle) : Inv (s.setCtx pid c) where
  __ := h
  tables := { h.tables with }
  memory := Memory.wf_setCtx s pid c h.memory
  idle q := by
    by_cases hq : q = pid
    · rw [hq, ctxOf_setCtx_same s pid c h.memory]
      exact hc
    · rw [ctxOf_setCtx_other s pid q c hq h.memory]
      exact h.idle q

/-- A page that is written is open. -/
theorem Inv.setPage (key : EbuKey) (lines : List EbuLine) : Inv (s.setPage key { isOpen := true, lines := lines }) where
  __ := h
  tables := { h.tables with }
  memory := Memory.wf_setPage s key _ h.memory
  closed k := by
    by_cases hk : k = key
    · rw [hk, pageOf_setPage_same s key _ h.memory]
      exact nofun
    · rw [pageOf_setPage_other s key k _ hk h.memory]
      exact h.closed k
  ebuOpen k hd := by
    by_cases hk : k = key
    · rw [hk, pageOf_setPage_same s key _ h.memory]
    · rw [pageOf_setPage_other s key k _ hk h.memory]
      exact h.ebuOpen k hd

theorem Inv.commitPat {r : Pat} (hr : r.valid = true) : Inv { s with pat := r } :=
  { h with tables := { h.tables with pat := fun hv => absurd (hr.symm.trans hv) (by decide) } }

theorem Inv.commitTdt {r : Tdt} (hr : r.valid = true) : Inv { s with tdt := r } :=
  { h with tables := { h.tables with tdt := fun hv => absurd (hr.symm.trans hv) (by decide) } }

theorem Inv.commitPmt {r : Pmt} (hr : r.valid = true ∧ r.listsOk s.cfg) : Inv { s with pmt := r } where
  __ := h
  tables := { h.tables with pmt := fun hv => absurd (hr.1.symm.trans hv) (by decide) }
  descriptors := (descLists_ok_iff _).2 { (descLists_ok_iff s).1 h.descriptors with left := hr.2 }

theorem Inv.commitNit {r : Nit} (hr : r.valid = true ∧ r.listsOk s.cfg) : Inv { s with nit := r } where
  __ := h
  tables := { h.tables with nit := fun hv => absurd (hr.1.symm.trans hv) (by decide) }
  descriptors :=
    have ⟨pmt, _, sdt, eit, ait⟩ := (descLists_ok_iff s).1 h.descriptors
    (descLists_ok_iff _).2 ⟨pmt, hr.2, sdt, eit, ait⟩

theorem Inv.commitSdt {r : Sdt} (hr : r.valid = true ∧ r.listsOk s.cfg) : Inv { s with sdt := r } where
  __ := h
  tables := { h.tables with sdt := fun hv => absurd (hr.1.symm.trans hv) (by decide) }
  descriptors :=
    have ⟨pmt, nit, _, eit, ait⟩ := (descLists_ok_iff s).1 h.descriptors
    (descLists_ok_iff _).2 ⟨pmt, nit, hr.2, eit, ait⟩

theorem Inv.commitEit {r : Eit} (hr : r.valid = true ∧ r.listsOk s.cfg) : Inv { s with eit := r } where
  __ := h
  tables := { h.tables with eit := fun hv => absurd (hr.1.symm.trans hv) (by decide) }
  descriptors :=
    have ⟨pmt, nit, sdt, _, ait⟩ := (descLists_ok_iff s).1 h.descriptors
    (descLists_ok_iff _).2 ⟨pmt, nit, sdt, hr.2, ait⟩

theorem Inv.commitAit {r : Ait} (hr : r.valid = true ∧ r.listsOk s.cfg) : Inv { s with ait := r } where
  __ := h
  tables := { h.tables with ait := fun hv => absurd (hr.1.symm.trans hv) (by decide) }
  descriptors :=
    have ⟨pmt, nit, sdt, eit, _⟩ := (descLists_ok_iff s).1 h.descriptors
    (descLists_ok_iff _).2 ⟨pmt, nit, sdt, eit, hr.2⟩

/-! Changes of the phase. -/

theorem Inv.cleared (hp : s.phase = .ready) : Inv s.cleared where
  memory := Memory.wf_cleared s
  packets := Nat.zero_le _
  errors := Nat.zero_le _
  pcr := Nat.zero_le _
  pcrUnset _ := rfl
  idle _ _ := rfl
  closed _ _ := rfl
  tables := ⟨fun _ => rfl, fun _ => rfl, fun _ => rfl, fun _ => rfl, fun _ => rfl, fun _ => rfl, fun _ => rfl⟩
  descriptors := by simp [State.descLists]
  ebuDone := by simp [h.ebuDone_none (by simp [hp])]
  ebuOpen := by simp [h.ebuDone_none (by simp [hp])]
  carry := by simp [packetLength]
  carrySync hne := absurd rfl hne
  ready _ := h.ready hp

/-- A batch is taken in `READY`, where no notification is outstanding. -/
theorem Inv.takeBatch (hp : s.phase = .ready) (bytes : Bytes) :
    Inv { s with phase := .inBatch, batchErr := false, stream := bytes, carry := [], pc := 0, work := [] } where
  __ := h
  tables := { h.tables with }
  ebuDone := by simp [h.ebuDone_none (by simp [hp])]
  carry := by simp [packetLength]
  carrySync hne := absurd rfl hne
  ready := nofun

/-- The acknowledgement clears the page whose notification it answers. -/
theorem Inv.acknowledge : Inv s.acknowledge := by
  rcases acknowledge_cases s with ⟨k, -, hk, he⟩ | ⟨hn, he⟩ <;> rw [he]
  · have hpage : s.clearLines k = s.setPage k { isOpen := true, lines := [] } := by
      simp [State.clearLines, h.ebuOpen k hk]
    exact hpage ▸
      { h.setPage k [] with tables := { h.tables with }, ebuDone := by simp, ebuOpen := nofun, ready := nofun }
  · have hnone : s.ebuDone = none := hn.elim (fun hp => h.ebuDone_none (.inr hp)) id
    exact { h with tables := { h.tables with }, ebuDone := by simp [hnone], ready := nofun }

/-- The notification of unit 9 names an open page. -/
theorem Inv.notifyPage {key : EbuKey} (ho : (s.pageOf key).isOpen = true) (he : s.cbEnabled .ebu = true) :
    Inv (State.notify { s with ebuDone := some key } .ebu) := by
  rcases notify_cases { s with ebuDone := some key } .ebu with ⟨-, hn⟩ | ⟨hd, -⟩
  · rw [hn]
    exact { h with tables := { h.tables with }, ebuDone := by simp, ready := nofun
                   ebuOpen := fun k hk => Option.some.inj hk ▸ ho }
  · exact absurd (he.symm.trans hd) (by decide)

/-! In a batch the engine's continuation and the cursor are free, and no notification is outstanding. -/

section
variable (hp : s.phase = .inBatch)
include hp

theorem Inv.withWork (w : List Work) (n : Nat) : Inv { s with work := w, pc := n } :=
  { h with tables := { h.tables with }, ready := fun hr => absurd (hp.symm.trans hr) (by decide) }

theorem Inv.push (w : List Work) : Inv (s.push w) := h.withWork hp _ _

theorem Inv.restart (pid : Pid) (new : Bytes) : Inv (s.restart pid new) := by
  rcases restart_cases s pid new with ⟨-, he⟩ | ⟨-, he⟩ <;> rw [he]
  · exact h.setCtx pid (Ctx.emptyIfIdle_idled _)
  · exact (h.setCtx pid (Ctx.emptyIfIdle_filled _ _)).push hp _

theorem Inv.notify {u : UnitId} (hu : u ≠ .ebu) : Inv (s.notify u) := by
  rcases notify_cases s u with ⟨-, he⟩ | ⟨-, he⟩ <;> rw [he]
  · exact { h with tables := { h.tables with }, ebuDone := by simp [h.ebuDone_none (by simp [hp]), hu], ready := nofun }
  · exact h

theorem Inv.endBatch (hw : s.work = []) : Inv s.endBatch :=
  { h with tables := { h.tables with }, ebuDone := by simp [h.ebuDone_none (by simp [hp])]
           ready := fun _ => ⟨hw, rfl, rfl⟩ }

/-- A turn of the framing loop where no packet stands: what is carried over is the head of one packet. -/
theorem Inv.reframe (hw : s.work = []) (hn : s.packetHere = none) : Inv s.reframe := by
  rcases reframe_cases s with ⟨-, he⟩ | ⟨-, -, he⟩ | ⟨-, hsync, hx, he⟩ | ⟨-, -, -, he⟩ <;> rw [he]
  · exact h.endBatch hp hw
  · exact (h.raise _).withWork hp _ _
  · have hhead : byteAt (s.stream.drop s.pc) 0 = s.cfg.syncByte := by simpa [byteAt] using hsync
    have hshort : (s.stream.drop s.pc).length < packetLength := by
      simpa using ((packetHere_eq_none s).1 hn).resolve_right (not_not.2 hhead)
    exact { h.withWork hp s.work s.stream.length with
              tables := { h.tables with }, carry := hshort, carrySync := fun _ => ⟨hx, hhead⟩ }
  · exact (h.raise _).withWork hp _ _

end
end

/-! ## The instructions and the step -/

theorem onlyIf_hostInstr {c : Bool} {i j : Instr} (hi : hostInstr i = true) (h : onlyIf c i = .ok j) :
    hostInstr j = true := by
  unfold onlyIf at h
  split at h
  · injection h with h
    exact h ▸ hi
  · cases h

theorem withUnit_hostInstr {b : BitVec 4} {k : UnitId → Except DecodeError Instr} {j : Instr}
    (hk : ∀ u, k u = .ok j → hostInstr j = true) (h : withUnit b k = .ok j) : hostInstr j = true := by
  unfold withUnit at h
  split at h
  · exact hk _ h
  · cases h

/-- The decoder of command words gives host commands alone. -/
theorem decodeCmd_hostInstr {w : BitVec 64} {i : Instr} (h : decodeCmd w = .ok i) : hostInstr i = true := by
  unfold decodeCmd at h
  dsimp only at h
  split at h
  -- GET_DESC_FIELD, which uses every field; no opcode; the other commands with a unit operand; those without
  case h_16 => exact withUnit_hostInstr (fun _ hu => Except.ok.inj hu ▸ rfl) h
  case h_19 => cases h
  case h_8 | h_9 | h_10 | h_11 | h_12 | h_13 | h_14 | h_15 | h_17 | h_18 =>
    exact withUnit_hostInstr (fun _ => onlyIf_hostInstr rfl) h
  all_goals exact onlyIf_hostInstr rfl h

/-- The operations of the reassembler are the engine's. -/
theorem hostInstr_of_buffer {i : Instr} {pid : Pid} (h : placeOf i = .buffer pid) : hostInstr i = false := by
  cases i with
  | secCc | secStart | secAppend | secDrain | secStuff => rfl
  | _ => cases h

/-- Every instruction keeps the invariant, those of the engine in a batch. -/
theorem Inv.of_exec {s t : State} {i : Instr} (h : Inv s) (hp : hostInstr i = false → s.phase = .inBatch)
    (he : exec i s = .next t) : Inv t := by
  cases exec_effect he with
  | answer r => exact h.respond r
  | cleared hr => exact (h.cleared hr).respond _
  | boundDsmcc | boundAit | boundPcr | boundEbu => exact (h.withBind _).respond _
  | slot u on => exact (h.withCbEn _).respond _
  | batch bytes hr => exact h.takeBatch hr _
  | acknowledged => exact h.acknowledge
  | pushed w hi => exact h.push (hp hi) w
  | packet afc hd rest w hi => exact (h.takePacket afc hd rest).push (hp hi) w
  | pcr pid afl field => exact (h.withPcr field).notify (hp rfl) (by decide)
  | context pid c w hi hc => exact (h.setCtx pid (hc (h.idle pid))).push (hp (hostInstr_of_buffer hi)) w
  | jumped pid payload c w hc => exact ((h.raise _).setCtx pid hc).push (hp rfl) w
  | integrity => exact h.raise _
  | pat sec r hr => exact (h.commitPat (parsePat_valid hr)).notify (hp rfl) (by decide)
  | pmt sec r hr => exact (h.commitPmt (parsePmt_ok hr)).notify (hp rfl) (by decide)
  | nit sec r hr => exact (h.commitNit (parseNit_ok hr)).notify (hp rfl) (by decide)
  | sdt sec r hr => exact (h.commitSdt (parseSdt_ok hr)).notify (hp rfl) (by decide)
  | eit sec r hr => exact (h.commitEit (parseEit_ok hr)).notify (hp rfl) (by decide)
  | tdt sec r hr => exact (h.commitTdt (parseTdt_valid hr)).notify (hp rfl) (by decide)
  | ait sec r hr => exact (h.commitAit (parseAit_ok hr)).notify (hp rfl) (by decide)
  | collected sec d => exact h.withDsmcc d
  | completed sec d => exact (h.withDsmcc d).notify (hp rfl) (by decide)
  | descriptor d => exact h.addDescriptor d
  | page key lines => exact h.setPage key lines
  | pageDone key ho hb => exact h.notifyPage ho hb

/-- What the engine finds to do: an instruction, or a move that changes the continuation and the cursor, starts a
section, or turns the framing loop where no packet stands. -/
theorem todo_cases (s : State) :
    (∃ i w, s.todo = .run i { s with work := w }) ∨ (∃ w n, s.todo = .go { s with work := w, pc := n }) ∨
    (∃ w pid new, s.todo = .go (State.restart { s with work := w } pid new)) ∨
    (s.work = [] ∧ s.packetHere = none ∧ s.todo = .go s.reframe) := by
  unfold State.todo
  split
  · split
    · exact .inl ⟨_, _, rfl⟩
    · exact .inr (.inl ⟨_, _, rfl⟩)
  · split
    · exact .inl ⟨_, _, rfl⟩
    · exact .inr (.inl ⟨_, _, rfl⟩)
  · exact .inr (.inr (.inl ⟨_, _, _, rfl⟩))
  · exact .inr (.inl ⟨_, _, rfl⟩)
  next hw =>
    split
    · exact .inl ⟨_, _, rfl⟩
    next hn => exact .inr (.inr (.inr ⟨hw, hn, rfl⟩))

section
variable {s t : State} (h : Inv s)
include h

theorem Inv.of_exec_host {i : Instr} (hi : hostInstr i = true) (he : exec i s = .next t) : Inv t :=
  h.of_exec (fun hf => absurd (hi.symm.trans hf) (by decide)) he

/-- An action of the host keeps the invariant in every phase. -/
theorem Inv.of_hostStep {a : HostAct} (he : hostStep a s = .next t) : Inv t := by
  rcases hostStep_cases he with ⟨w, i, -, hi, he⟩ | ⟨w, e, -, -, he⟩ | ⟨bytes, -, he⟩ | ⟨-, he⟩ | ⟨-, rfl⟩
  · exact h.of_exec_host (decodeCmd_hostInstr hi) he
  · exact eq_of_next he ▸ h.respond _
  · exact h.of_exec_host rfl he
  · exact h.of_exec_host rfl he
  · exact Inv.powerOn s

theorem Inv.of_engineStep (hp : s.phase = .inBatch) (he : engineStep s = .next t) : Inv t := by
  unfold engineStep at he
  rcases todo_cases s with ⟨i, w, htodo⟩ | ⟨w, n, htodo⟩ | ⟨w, pid, new, htodo⟩ | ⟨hw, hn, htodo⟩ <;> rw [htodo] at he
  · exact (h.withWork hp w s.pc).of_exec (fun _ => hp) he
  · exact eq_of_next he ▸ h.withWork hp w n
  · exact eq_of_next he ▸ (h.withWork hp w s.pc).restart hp pid new
  · exact eq_of_next he ▸ h.reframe hp hw hn

theorem Inv.of_step (he : step s = .next t) : Inv t := by
  unfold step at he
  split at he
  next a u ha =>
    obtain ⟨_, rest, -, rfl, -⟩ := takeAction_some ha
    exact (h.withHost rest).of_hostStep he
  next =>
    split at he
    next hp => exact (h.withHost (tickHost s.host)).of_engineStep hp he
    next => exact eq_of_next he ▸ h

end

/-- Settles O14: an action of the host and a step of the engine are each made of operations that keep the invariant. -/
theorem invEveryStep : Obligations.InvEveryStep := fun _ _ h he => h.of_step he

/-! ## Power-on -/

/-- Settles O8: each value is the default of its field. -/
theorem resetValues : Obligations.ResetValues :=
  ⟨rfl, rfl, rfl, rfl, rfl, rfl, rfl, rfl, rfl, rfl, rfl, rfl, rfl, rfl, rfl, rfl, fun _ => rfl, fun _ => rfl⟩

/-- With every context at its reset value and no work, every buffer is settled. -/
theorem BufInv.reset : BufInv State.reset where
  buffers _ := .inl (.inl ⟨rfl, rfl⟩)
  fits := List.forall_mem_nil _
  tail := List.forall_mem_nil _
  head := nofun
  ready _ := rfl

/-- Settles O13: the state of power-on is what the reset input makes of itself. -/
theorem invariantsAtReset : Obligations.InvariantsAtReset := ⟨Inv.powerOn State.reset, BufInv.reset⟩

end Sys2Proof.Machine
end

section
/-! What an instruction leaves as it is: the configuration of the block and the bytes of its stores. -/

namespace Sys2Proof.Machine

/-! ## The configuration (10_state.md R24, R25, R46) -/

/-- The parameters, the bindings and the slots. -/
def State.config (s : State) : Config × Bindings × BitVec 10 := (s.cfg, s.bind, s.cbEn)

theorem config_notify (s : State) (u : UnitId) : (s.notify u).config = s.config := by simp [State.config]

theorem config_acknowledge (s : State) : s.acknowledge.config = s.config := by
  rcases acknowledge_cases s with ⟨k, -, -, he⟩ | ⟨-, he⟩ <;> rw [he] <;> rfl

/-- Settles O18: an instruction that changes the configuration is a command that sets up the block, and it writes its
own register alone. -/
theorem configurationFrame : Obligations.ConfigurationFrame := by
  intro i s t he
  by_cases hsame : t.config = s.config
  · simp only [State.config, Prod.mk.injEq] at hsame
    obtain ⟨hcfg, hbind, hcb⟩ := hsame
    simp [hcfg, hbind, hcb]
  · cases exec_effect he with
    | boundDsmcc pid | boundAit pid | boundPcr pid | boundEbu pid => simp
    | slot u on hi => simpa using fun _ => ⟨u, hi⟩
    | acknowledged => exact absurd (config_acknowledge s) hsame
    | pcr | pat | pmt | nit | sdt | eit | tdt | ait | completed | pageDone =>
      exact absurd (config_notify _ _) hsame
    | _ => exact absurd rfl hsame

/-! ## Bytes of the stores (10_state.md R33) -/

/-- Writing one key leaves every other key, whatever the form of the store. -/
theorem SMap.get_set_of_ne {α : Type} [DecidableEq α] (d : α) {k m : Nat} (v : α) (l : List (Nat × α)) (hm : m ≠ k) :
    SMap.get d m (SMap.set d k v l) = SMap.get d m l := by
  induction l with
  | nil =>
    unfold SMap.set
    split
    · rfl
    · exact if_neg hm.symm
  | cons e l ih =>
    obtain ⟨j, x⟩ := e
    unfold SMap.set
    split_ifs with hlt hv heq hv
    · rfl
    · exact if_neg hm.symm
    · exact (if_neg (heq ▸ hm.symm)).symm
    · subst heq
      simp [SMap.get, hm.symm]
    · simp only [SMap.get, ih]

theorem ctxOf_setCtx_of_ne (s : State) {p q : Pid} (c : Ctx) (hq : q ≠ p) : (s.setCtx p c).ctxOf q = s.ctxOf q :=
  SMap.get_set_of_ne _ _ _ fun e => hq (BitVec.eq_of_toNat_eq e)

theorem pageOf_setPage_of_ne (s : State) {k l : EbuKey} (pg : EbuPage) (hl : l ≠ k) :
    (s.setPage k pg).pageOf l = s.pageOf l :=
  SMap.get_set_of_ne _ _ _ fun e => hl (keyIndex_injective e)

/-- The record of a table unit with descriptor lists is the same. -/
def sameTable (s t : State) : UnitId → Prop
  | .pmt => t.pmt = s.pmt
  | .nit => t.nit = s.nit
  | .sdt => t.sdt = s.sdt
  | .eit => t.eit = s.eit
  | .ait => t.ait = s.ait
  | .pat | .tdt | .dsmcc | .pcr | .ebu => True

/-- The part of the store that holds the byte at an address is the same. -/
def sameAt (s t : State) : MemAddr → Prop
  | .input _ => t.stream = s.stream
  | .secbuf p _ => t.ctxOf p = s.ctxOf p
  | .desc u .. => sameTable s t u
  | .dsmcc .. => t.dsmcc = s.dsmcc
  | .ebu key .. => t.pageOf key = s.pageOf key

/-- A descriptor list depends on the record of its unit alone. -/
theorem resolve_congr {s t : State} {u : UnitId} (h : sameTable s t u) (sel : Byte) (idx1 : Nat) :
    resolve t u sel idx1 = resolve s u sel idx1 := by
  cases u with
  | pmt | nit | sdt | eit | ait =>
    simp only [sameTable] at h
    simp only [resolve, State.tableValid, h]
    refine if_congr Iff.rfl rfl ?_
    split <;> simp_all
  | pat | tdt | dsmcc | pcr | ebu => simp [resolve]

theorem readByte_congr {s t : State} {a : MemAddr} (h : sameAt s t a) : readByte t a = readByte s a := by
  cases a with
  | desc u => simp only [readByte, resolve_congr h]
  | input | secbuf | dsmcc | ebu =>
    simp only [sameAt] at h
    simp only [readByte, h]

/-- The stores that hold bytes. -/
def State.stores (s : State) :
    Bytes × List (Nat × Ctx) × Pmt × Nit × Sdt × Eit × Ait × Dsmcc × List (Nat × EbuPage) :=
  (s.stream, s.ctx, s.pmt, s.nit, s.sdt, s.eit, s.ait, s.dsmcc, s.ebu)

theorem stores_notify (s : State) (u : UnitId) : (s.notify u).stores = s.stores := by simp [State.stores]

theorem sameAt_congr {s t t' : State} {a : MemAddr} (h : t'.stores = t.stores) : sameAt s t' a ↔ sameAt s t a := by
  simp only [State.stores, Prod.mk.injEq] at h
  obtain ⟨hstream, hctx, hpmt, hnit, hsdt, heit, hait, hdsmcc, hebu⟩ := h
  cases a with
  | desc u => cases u <;> simp [sameAt, sameTable, *]
  | input | secbuf | dsmcc | ebu => simp [sameAt, State.ctxOf, State.pageOf, *]

theorem sameAt_refl (s : State) (a : MemAddr) : sameAt s s a := by
  cases a with
  | desc u => cases u <;> trivial
  | input | secbuf | dsmcc | ebu => rfl

theorem sameAt_of_stores {s t : State} (a : MemAddr) (h : t.stores = s.stores) : sameAt s t a :=
  (sameAt_congr h).2 (sameAt_refl s a)

theorem sameAt_setCtx (s : State) {pid : Pid} (c : Ctx) {a : MemAddr} (ha : ∀ k, a ≠ .secbuf pid k) :
    sameAt s (s.setCtx pid c) a := by
  cases a with
  | secbuf p k => exact ctxOf_setCtx_of_ne s c fun hp => ha k (hp ▸ rfl)
  | desc u => cases u <;> trivial
  | _ => rfl

theorem sameAt_setPage (s : State) {key : EbuKey} (pg : EbuPage) {a : MemAddr} (ha : ∀ j k, a ≠ .ebu key j k) :
    sameAt s (s.setPage key pg) a := by
  cases a with
  | ebu l j k => exact pageOf_setPage_of_ne s pg fun hl => ha j k (hl ▸ rfl)
  | desc u => cases u <;> trivial
  | _ => rfl

theorem sameAt_withDsmcc (s : State) (d : Dsmcc) {a : MemAddr} (ha : ∀ j k, a ≠ .dsmcc j k) :
    sameAt s { s with dsmcc := d } a := by
  cases a with
  | dsmcc j k => exact absurd rfl (ha j k)
  | desc u => cases u <;> trivial
  | _ => rfl

/-- The bytes of a place. -/
def Place.holds : Place → MemAddr → Prop
  | .nowhere, _ => False
  | .buffer pid, a => ∃ k, a = .secbuf pid k
  | .lists u, a => ∃ v i j k, a = .desc u v i j k
  | .sections, a => ∃ j k, a = .dsmcc j k
  | .page key, a => ∃ j k, a = .ebu key j k
  | .everywhere, _ => True

/-- An instruction leaves every byte outside the place it may store to. -/
theorem readByte_of_not_holds {i : Instr} {s t : State} {a : MemAddr} (he : exec i s = .next t)
    (ha : ¬ (placeOf i).holds a) : readByte t a = readByte s a := by
  apply readByte_congr
  cases exec_effect he with
  | cleared | batch | acknowledged => exact absurd trivial ha
  | context pid c w hi => exact sameAt_setCtx s c fun k hk => ha (hi ▸ ⟨k, hk⟩)
  | jumped pid payload c w => exact sameAt_setCtx (s.raise _) c fun k hk => ha ⟨k, hk⟩
  | page key lines hi => exact sameAt_setPage s _ fun j k hk => ha (hi ▸ ⟨j, k, hk⟩)
  | pmt | nit | sdt | eit | ait =>
    rw [sameAt_congr (stores_notify _ _)]
    cases a with
    | desc u => cases u <;> simp_all [sameAt, sameTable, placeOf, Place.holds]
    | _ => rfl
  | collected sec d => exact sameAt_withDsmcc s d fun j k hk => ha ⟨j, k, hk⟩
  | completed sec d =>
    exact (sameAt_congr (stores_notify _ _)).2 (sameAt_withDsmcc s d fun j k hk => ha ⟨j, k, hk⟩)
  | pcr | pat | tdt | pageDone => exact sameAt_of_stores a (stores_notify _ _)
  | _ => exact sameAt_of_stores a rfl

theorem placeOf_of_storesNothing {i : Instr} (hi : storesNothing i = true) : placeOf i = .nowhere := by
  cases i with
  | reset | process | ack | secCc | secStart | secAppend | secDrain | secStuff | secPmt | secDsmcc | secNit | secSdt
  | secEit | secAit | ebuHeader | ebuLine => cases hi
  | _ => rfl

/-- Settles O21: such an instruction has no place to store to. -/
theorem noStoreNoChange : Obligations.NoStoreNoChange := fun _ _ _ hi he _ =>
  readByte_of_not_holds he (placeOf_of_storesNothing hi ▸ id)

/-- Settles O22: each storing instruction has one place to store to. -/
theorem storesOnlyThere : Obligations.StoresOnlyThere := by
  refine ⟨?reassembler, ?decoders, ?events⟩
  case reassembler =>
    intro pid b s t a _ ha he
    have houtside : ¬ (Place.buffer pid).holds a := fun ⟨k, hk⟩ => ha k hk
    rcases he with he | he | he | he | he <;> exact readByte_of_not_holds he houtside
  case decoders =>
    intro sec s t a
    have houtside {u : UnitId} (ha : ∀ v i j k, a ≠ .desc u v i j k) : ¬ (Place.lists u).holds a :=
      fun ⟨v, i, j, k, hk⟩ => ha v i j k hk
    exact ⟨fun he ha => readByte_of_not_holds he (houtside ha), fun he ha => readByte_of_not_holds he (houtside ha),
      fun he ha => readByte_of_not_holds he (houtside ha), fun he ha => readByte_of_not_holds he (houtside ha),
      fun he ha => readByte_of_not_holds he (houtside ha),
      fun he ha => readByte_of_not_holds he fun ⟨j, k, hk⟩ => ha j k hk⟩
  case events =>
    intro key row d s t a _ ha he
    have houtside : ¬ (Place.page key).holds a := fun ⟨j, k, hk⟩ => ha j k hk
    rcases he with he | he <;> exact readByte_of_not_holds he houtside

end Sys2Proof.Machine
end

section
/-! The command words of 30_encoding.md R120, R121: their fields at their positions, and the decoder and the encoder as
inverses of each other. -/

namespace Sys2Proof

open Laws

/-! ## The layout of a word (R120) -/

theorem cmdFields_cmdWordOf (op : Byte) (f : CmdFields) : cmdFields (cmdWordOf op f) = f := by
  simp (disch := decide) only [cmdFields, cmdWordOf, BitVec.extractLsb'_append_eq_of_le,
    BitVec.extractLsb'_append_eq_of_add_le, Nat.reduceSub, BitVec.extractLsb'_eq_self]

theorem cmdWordOf_opOf_cmdFields (w : BitVec 64) : cmdWordOf (opOf w) (cmdFields w) = w := by
  simp (disch := decide) only [cmdWordOf, opOf, cmdFields, BitVec.extractLsb'_append_extractLsb'_eq_extractLsb']
  exact BitVec.extractLsb'_eq_self

/-- A word is its opcode and its fields, and nothing else. -/
theorem cmdWordOf_eq_iff {w : BitVec 64} {op : Byte} {f : CmdFields} :
    cmdWordOf op f = w ↔ opOf w = op ∧ cmdFields w = f := by
  constructor
  · rintro rfl
    exact ⟨opOf_cmdWordOf op f, cmdFields_cmdWordOf op f⟩
  · rintro ⟨rfl, rfl⟩
    exact cmdWordOf_opOf_cmdFields w

/-- The word of a `SET_PID_r` is its opcode and its PID, with zeros between them. -/
theorem pidWordOf_eq_iff {w : BitVec 64} {op : Byte} {pid : Pid} :
    pidWordOf op pid = w ↔ opOf w = op ∧ w.extractLsb' 13 43 = 0 ∧ w.extractLsb' 0 13 = pid := by
  constructor
  · rintro rfl
    refine ⟨opOf_pidWordOf op pid, ?_, BitVec.extractLsb'_append_eq_right⟩
    rw [pidWordOf, BitVec.extractLsb'_append_eq_of_le (by decide)]
    exact BitVec.extractLsb'_append_eq_right
  · rintro ⟨rfl, hzero, rfl⟩
    rw [pidWordOf, opOf, show 0#43 = w.extractLsb' 13 43 from hzero.symm]
    simp (disch := decide) only [BitVec.extractLsb'_append_extractLsb'_eq_extractLsb']
    exact BitVec.extractLsb'_eq_self

theorem CmdFields.eq_mk_iff {f : CmdFields} {unit : BitVec 4} {sel idx3 arg8 : Byte} {idx1 : BitVec 16}
    {idx2 : BitVec 12} :
    f = ⟨unit, sel, idx1, idx2, idx3, arg8⟩ ↔
      f.unit = unit ∧ f.sel = sel ∧ f.idx1 = idx1 ∧ f.idx2 = idx2 ∧ f.idx3 = idx3 ∧ f.arg8 = arg8 := by
  cases f
  simp

/-! ## Unused fields: the decoder tests a range of bits, the encoder writes each field as 0 -/

/-- Every field inside a range of zeros at the low end is zero. -/
theorem extractLsb'_eq_zero_of_low {n k start len : Nat} {w : BitVec n} (h : w.extractLsb' 0 k = 0)
    (hle : start + len ≤ k) : w.extractLsb' start len = 0 := by
  rw [← BitVec.extractLsb'_extractLsb'_of_le hle, h]
  exact BitVec.extractLsb'_zero

/-- The bits below `unit` are zero when every other field is. -/
theorem belowUnit_eq_zero_iff {w : BitVec 64} :
    w.extractLsb' 0 52 = 0 ↔ cmdFields w = { unit := (cmdFields w).unit } := by
  simp only [cmdFields, CmdFields.mk.injEq, true_and]
  constructor
  · intro h
    refine ⟨?_, ?_, ?_, ?_, ?_⟩ <;> exact extractLsb'_eq_zero_of_low h (by decide)
  · rintro ⟨hsel, hidx1, hidx2, hidx3, harg8⟩
    have hlow : w.extractLsb' 0 52 = w.extractLsb' 44 8 ++ w.extractLsb' 28 16 ++ w.extractLsb' 16 12 ++
        w.extractLsb' 8 8 ++ w.extractLsb' 0 8 := by
      simp (disch := decide) only [BitVec.extractLsb'_append_extractLsb'_eq_extractLsb']
    rw [hlow, hsel, hidx1, hidx2, hidx3, harg8]
    rfl

/-- The bits below `op` are zero when every field is. -/
theorem belowOp_eq_zero_iff {w : BitVec 64} : w.extractLsb' 0 56 = 0 ↔ cmdFields w = {} := by
  constructor
  · intro h
    simp only [cmdFields, CmdFields.mk.injEq]
    refine ⟨?_, ?_, ?_, ?_, ?_, ?_⟩ <;> exact extractLsb'_eq_zero_of_low h (by decide)
  · intro h
    have hlow : w.extractLsb' 0 56 = (cmdFields w).unit ++ w.extractLsb' 0 52 := by
      simp (disch := decide) only [cmdFields, BitVec.extractLsb'_append_extractLsb'_eq_extractLsb']
    rw [hlow, belowUnit_eq_zero_iff.2 (by rw [h]), h]
    rfl

/-! ## Unit operands and the checks of a word -/

theorem unitOf_unitNumber (u : UnitId) : unitOf (unitNumber u) = some u := by cases u <;> rfl

theorem unitNumber_of_unitOf {b : BitVec 4} {u : UnitId} (h : unitOf b = some u) : unitNumber u = b := by
  unfold unitOf at h
  split at h
  case h_11 => cases h
  all_goals
    cases h
    exact BitVec.eq_of_toNat_eq (.symm ‹_›)

theorem withUnit_unitNumber (u : UnitId) (k : UnitId → Except DecodeError Instr) :
    withUnit (unitNumber u) k = k u := by
  rw [withUnit, unitOf_unitNumber]

theorem withUnit_eq_ok {b : BitVec 4} {k : UnitId → Except DecodeError Instr} {i : Instr} (h : withUnit b k = .ok i) :
    ∃ u, b = unitNumber u ∧ k u = .ok i := by
  unfold withUnit at h
  split at h
  next u hu => exact ⟨u, (unitNumber_of_unitOf hu).symm, h⟩
  next => cases h

theorem onlyIf_eq_ok_iff {c : Bool} {i j : Instr} : onlyIf c i = .ok j ↔ c = true ∧ j = i := by
  cases c <;> simp [onlyIf, eq_comm]

/-! ## Decoder and encoder -/

theorem decodeCmd_of_encode {cfg : Config} {i : Instr} {w : BitVec 64} (h : encode cfg i = .cmdWord w) :
    decodeCmd w = .ok i := by
  cases i with
  | reset | getErrors | getPackets =>
    obtain ⟨hop, hf⟩ := cmdWordOf_eq_iff.1 (Code.cmdWord.inj h)
    have hzero : w.extractLsb' 0 56 = 0#56 := belowOp_eq_zero_iff.2 hf
    simp [decodeCmd, hop, onlyIf, hzero]
  | setPidDsmcc | setPidAit | setPidPcr | setPidEbu =>
    obtain ⟨hop, hzero, hpid⟩ := pidWordOf_eq_iff.1 (Code.cmdWord.inj h)
    simp [decodeCmd, hop, onlyIf, show w.extractLsb' 13 43 = 0#43 from hzero, hpid]
  | registerCb | unregisterCb | dsmccIsComplete | dsmccDecode =>
    obtain ⟨hop, hf⟩ := cmdWordOf_eq_iff.1 (Code.cmdWord.inj h)
    have hzero : w.extractLsb' 0 52 = 0#52 := belowUnit_eq_zero_iff.2 (by rw [hf])
    simp [decodeCmd, hop, hf, withUnit_unitNumber, onlyIf, hzero]
  | getField | getListLen | getDescListLenAll | getDescListLenForTag | getDescByIndex | getDescByTag | getDescField =>
    obtain ⟨hop, hf⟩ := cmdWordOf_eq_iff.1 (Code.cmdWord.inj h)
    simp [decodeCmd, hop, hf, withUnit_unitNumber, onlyIf]
  | _ => cases h

theorem cmdWord_eq {w : BitVec 64} {op : Byte} {f : CmdFields} (hop : (opOf w).toNat = op.toNat)
    (hf : cmdFields w = f) : Code.cmdWord (cmdWordOf op f) = .cmdWord w :=
  congrArg Code.cmdWord (cmdWordOf_eq_iff.2 ⟨BitVec.eq_of_toNat_eq hop, hf⟩)

theorem encode_of_decodeCmd (cfg : Config) {w : BitVec 64} {i : Instr} (h : decodeCmd w = .ok i) :
    encode cfg i = .cmdWord w := by
  unfold decodeCmd at h
  dsimp only at h
  split at h
  -- no field
  case h_1 hop | h_6 hop | h_7 hop =>
    obtain ⟨hzero, rfl⟩ := onlyIf_eq_ok_iff.1 h
    exact cmdWord_eq hop (belowOp_eq_zero_iff.1 (eq_of_beq hzero))
  -- a PID
  case h_2 hop | h_3 hop | h_4 hop | h_5 hop =>
    obtain ⟨hzero, rfl⟩ := onlyIf_eq_ok_iff.1 h
    exact congrArg Code.cmdWord (pidWordOf_eq_iff.2 ⟨BitVec.eq_of_toNat_eq hop, eq_of_beq hzero, rfl⟩)
  -- a unit alone
  case h_8 hop | h_9 hop =>
    obtain ⟨u, hu, h⟩ := withUnit_eq_ok h
    obtain ⟨hzero, rfl⟩ := onlyIf_eq_ok_iff.1 h
    exact cmdWord_eq hop (hu ▸ belowUnit_eq_zero_iff.1 (eq_of_beq hzero))
  -- a unit and some of the other fields
  case h_10 hop | h_11 hop | h_12 hop | h_13 hop | h_14 hop | h_15 hop =>
    obtain ⟨u, hu, h⟩ := withUnit_eq_ok h
    obtain ⟨hzero, rfl⟩ := onlyIf_eq_ok_iff.1 h
    simp only [Bool.and_eq_true, beq_iff_eq] at hzero
    exact cmdWord_eq hop (by simp [CmdFields.eq_mk_iff, hu, hzero])
  -- GET_DESC_FIELD, which uses them all
  case h_16 hop =>
    obtain ⟨u, hu, h⟩ := withUnit_eq_ok h
    cases h
    exact cmdWord_eq hop (by rw [← hu])
  -- the unit DSMCC alone
  case h_17 hop | h_18 hop =>
    obtain ⟨u, hu, h⟩ := withUnit_eq_ok h
    obtain ⟨hzero, rfl⟩ := onlyIf_eq_ok_iff.1 h
    simp only [Bool.and_eq_true, decide_eq_true_eq, beq_iff_eq] at hzero
    obtain ⟨rfl, hzero⟩ := hzero
    exact cmdWord_eq hop (hu ▸ belowUnit_eq_zero_iff.1 hzero)
  case h_19 => cases h

/-- No operand of a host command is wider than its field. -/
theorem wf_of_encode_cmdWord {cfg : Config} {i : Instr} {w : BitVec 64} (h : encode cfg i = .cmdWord w) :
    i.wf cfg = true := by
  cases i with
  | reset | setPidDsmcc | setPidAit | setPidPcr | setPidEbu | getErrors | getPackets | registerCb | unregisterCb
  | getField | getListLen | getDescListLenAll | getDescListLenForTag | getDescByIndex | getDescByTag | getDescField
  | dsmccIsComplete | dsmccDecode => rfl
  | _ => cases h

end Sys2Proof
end

section
/-! Packets (30_encoding.md R101 to R104, R111): the header word and its fields, and the decoders of a packet and of a
PCR on the bytes that the encoder writes. -/

namespace Sys2Proof

open Laws

/-! ## Byte order: what is written is what is read (00_scope.md R10) -/

/-- A field of a field is a field of the whole. -/
theorem extractLsb'_extractLsb' {n start len start' len' : Nat} (w : BitVec n) (h : start' + len' ≤ len) :
    (w.extractLsb' start len).extractLsb' start' len' = w.extractLsb' (start + start') len' := by
  ext i hi
  simp [show start' + i < len by omega, Nat.add_assoc]

theorem u32_be32 (v : BitVec 32) (rest : Bytes) : u32 (be32 v ++ rest) 0 = v := by
  simp (disch := decide) only [u32, u16, byteAt, be32, be16, List.cons_append, List.nil_append, List.getD_cons_zero,
    List.getD_cons_succ, extractLsb'_extractLsb', BitVec.extractLsb'_append_extractLsb'_eq_extractLsb']
  exact BitVec.extractLsb'_eq_self

theorem u48_be48 (v : BitVec 48) (rest : Bytes) : u48 (be48 v ++ rest) 0 = v := by
  simp (disch := decide) only [u48, u32, u16, byteAt, be48, be32, be16, List.cons_append, List.nil_append,
    List.getD_cons_zero, List.getD_cons_succ, extractLsb'_extractLsb',
    BitVec.extractLsb'_append_extractLsb'_eq_extractLsb']
  exact BitVec.extractLsb'_eq_self

theorem be16_append (a b : Byte) : be16 (a ++ b) = [a, b] := by
  rw [be16, BitVec.extractLsb'_append_eq_left, BitVec.extractLsb'_append_eq_right]

theorem be32_append (a b : BitVec 16) : be32 (a ++ b) = be16 a ++ be16 b := by
  rw [be32, BitVec.extractLsb'_append_eq_left, BitVec.extractLsb'_append_eq_right]

theorem be32_u32_append_drop {p : Bytes} (h : 4 ≤ p.length) : be32 (u32 p 0) ++ p.drop 4 = p := by
  match p, h with
  | b0 :: b1 :: b2 :: b3 :: rest, _ =>
    rw [u32, be32_append, u16, u16, be16_append, be16_append]
    rfl

/-! ## The header word (R101) -/

/-- A single bit is a field of width 1. -/
theorem ofBool_getLsbD {n : Nat} (w : BitVec n) (i : Nat) : BitVec.ofBool (w.getLsbD i) = w.extractLsb' i 1 := by
  ext j hj
  obtain rfl : j = 0 := by omega
  simp

theorem headOf_headWord (sync : Byte) (h : PktHead) (afc : BitVec 2) : headOf (headWord sync h afc) = h := by
  simp (disch := decide) only [headOf, headWord, BitVec.getLsbD_append, BitVec.extractLsb'_append_eq_of_le,
    BitVec.extractLsb'_append_eq_of_add_le, Nat.reduceSub, BitVec.extractLsb'_eq_self, Nat.reduceLT, reduceIte,
    BitVec.getLsbD_ofBool, decide_true, Bool.true_and]

theorem afc_headWord (sync : Byte) (h : PktHead) (afc : BitVec 2) :
    (headWord sync h afc).extractLsb' 4 2 = afc := by
  simp (disch := decide) only [headWord, BitVec.extractLsb'_append_eq_of_le,
    BitVec.extractLsb'_append_eq_of_add_le, Nat.reduceSub, BitVec.extractLsb'_eq_self]

theorem headWord_headOf (w : BitVec 32) : headWord (w.extractLsb' 24 8) (headOf w) (w.extractLsb' 4 2) = w := by
  simp (disch := decide) only [headWord, headOf, ofBool_getLsbD, BitVec.extractLsb'_append_extractLsb'_eq_extractLsb']
  exact BitVec.extractLsb'_eq_self

/-- The sync byte is the top byte of the header word. -/
theorem extractLsb'_u32_sync (p : Bytes) : (u32 p 0).extractLsb' 24 8 = byteAt p 0 := by
  rw [u32, BitVec.extractLsb'_append_eq_of_le (by decide), u16]
  exact BitVec.extractLsb'_append_eq_left

/-- `afc[1]`, which PCR.DECODE reads in byte 3. -/
theorem byteAt_three_afc (p : Bytes) : (byteAt p 3).getLsbD 5 = ((u32 p 0).extractLsb' 4 2).getLsbD 1 := by
  rw [BitVec.getLsbD_extractLsb', u32, BitVec.getLsbD_append, u16, u16, BitVec.getLsbD_append]
  rfl

/-! ## The bytes of a packet -/

theorem u32_packetBytes (sync : Byte) (afc : BitVec 2) (h : PktHead) (rest : Bytes) :
    u32 (packetBytes sync afc h rest) 0 = headWord sync h afc := u32_be32 _ rest

theorem drop_packetBytes (sync : Byte) (afc : BitVec 2) (h : PktHead) (rest : Bytes) :
    (packetBytes sync afc h rest).drop 4 = rest := rfl

/-- A packet is its sync byte, its header fields and its other bytes, and nothing else. -/
theorem packetBytes_headOf {p : Bytes} (h : 4 ≤ p.length) :
    packetBytes (byteAt p 0) ((u32 p 0).extractLsb' 4 2) (headOf (u32 p 0)) (p.drop 4) = p := by
  rw [packetBytes, ← extractLsb'_u32_sync, headWord_headOf, be32_u32_append_drop h]

theorem encode_packetInstr (cfg : Config) (afc : BitVec 2) (h : PktHead) (rest : Bytes) :
    encode cfg (packetInstr afc h rest) = .packet (packetBytes cfg.syncByte afc h rest) := by
  have hafc : afc = 0 ∨ afc = 1 ∨ afc = 2 ∨ afc = 3 := by decide +revert
  rcases hafc with rfl | rfl | rfl | rfl <;> rfl

theorem wf_packetInstr (cfg : Config) (afc : BitVec 2) (h : PktHead) (rest : Bytes) :
    (packetInstr afc h rest).wf cfg = restFits rest := by
  unfold packetInstr
  split <;> rfl

theorem decodePacket_packetBytes (cfg : Config) (afc : BitVec 2) (h : PktHead) {rest : Bytes}
    (hr : restFits rest = true) :
    decodePacket cfg.syncByte (packetBytes cfg.syncByte afc h rest) = .ok (packetInstr afc h rest) := by
  obtain ⟨hlen, hsync⟩ := packetBytes_fits cfg afc h rest hr
  rw [decodePacket, if_neg (not_not.2 hlen), if_neg (not_not.2 hsync), u32_packetBytes, drop_packetBytes,
    headOf_headWord, afc_headWord]

/-- Only the bytes that the encoder writes for a packet instruction decode to one. -/
theorem decodePacket_eq_ok {sync : Byte} {p : Bytes} {i : Instr} (h : decodePacket sync p = .ok i) :
    ∃ afc head rest, restFits rest = true ∧ p = packetBytes sync afc head rest ∧ i = packetInstr afc head rest := by
  unfold decodePacket at h
  split at h
  next => cases h
  next hlen =>
    split at h
    next => cases h
    next hsync =>
      have hlen : p.length = 188 := not_not.1 hlen
      refine ⟨_, _, _, ?_, ?_, (Except.ok.inj h).symm⟩
      · simp [restFits, hlen]
      · rw [← not_not.1 hsync, packetBytes_headOf (by omega)]

theorem decodePcr_pcrPacketBytes (cfg : Config) (pid : Pid) (afl : Byte) (field : BitVec 48) :
    decodePcr cfg.syncByte (pcrPacketBytes cfg.syncByte pid afl field) = .ok (.pcrDecode pid afl field) := by
  obtain ⟨hlen, hsync⟩ := EncodeFits.pcrDecode pid afl field cfg rfl
  have hword : u32 (pcrPacketBytes cfg.syncByte pid afl field) 0 =
      headWord cfg.syncByte ⟨false, false, false, pid, 0, 0⟩ 2#2 := u32_packetBytes ..
  have hafc : (byteAt (pcrPacketBytes cfg.syncByte pid afl field) 3).getLsbD 5 = true := by
    rw [byteAt_three_afc, hword, afc_headWord]
    rfl
  have hflag : (byteAt (pcrPacketBytes cfg.syncByte pid afl field) 5).getLsbD 4 = true :=
    show (0x10#8).getLsbD 4 = true by decide
  have hpid : (u32 (pcrPacketBytes cfg.syncByte pid afl field) 0).extractLsb' 8 13 = pid :=
    hword ▸ congrArg PktHead.pid (headOf_headWord ..)
  have hafl : byteAt (pcrPacketBytes cfg.syncByte pid afl field) 4 = afl := rfl
  have hfield : u48 (pcrPacketBytes cfg.syncByte pid afl field) 6 = field :=
    u48_be48 field (List.replicate 176 0#8)
  rw [decodePcr, if_neg (not_not.2 hlen), if_neg (not_not.2 hsync), hafc, hflag, hpid, hafl, hfield]
  rfl

end Sys2Proof
end

section
/-! Sections and descriptors (30_encoding.md R109, R112 to R115), and the proofs of the family 30_encoding.md. -/

namespace Sys2Proof

open Laws Machine

/-! ## Sections: the tests of the decoder, in their order -/

theorem decodeTable_cons_plain {cfg : Config} {tid : Byte} {tail : Bytes} (pid : Pid) (roles : List Role)
    (hpad : tid ≠ 0xFF#8) (hstuff : tid ∉ cfg.stuffingIds) :
    decodeTable cfg pid roles (tid :: tail) =
      .ok (((roles.find? (accepted cfg · tid)).map (tableInstr · (tid :: tail))).getD (.secOther (tid :: tail))) := by
  simp only [decodeTable, if_neg hpad, List.contains_iff_mem, if_neg hstuff]
  cases roles.find? (accepted cfg · tid) <;> rfl

/-- A whole section has a `table_id`. -/
theorem wholeSection_cons {sec : Bytes} (h : wholeSection sec = true) : ∃ tid tail, sec = tid :: tail :=
  List.exists_cons_of_ne_nil (wholeSection_ne_nil sec h)

theorem plainSection_cons {cfg : Config} {sec : Bytes} (h : plainSection cfg sec = true) :
    ∃ tid tail, sec = tid :: tail ∧ tid ≠ 0xFF#8 ∧ tid ∉ cfg.stuffingIds := by
  simp only [plainSection, Bool.and_eq_true, bne_iff_ne, Bool.not_eq_true', List.contains_eq_mem,
    decide_eq_false_iff_not] at h
  obtain ⟨⟨hwhole, hpad⟩, hstuff⟩ := h
  obtain ⟨tid, tail, rfl⟩ := wholeSection_cons hwhole
  exact ⟨tid, tail, rfl, hpad, hstuff⟩

theorem decodeTable_of_plainSection {cfg : Config} {sec : Bytes} (pid : Pid) (h : plainSection cfg sec = true) :
    decodeTable cfg pid [] sec = .ok (.secOther sec) := by
  obtain ⟨tid, tail, rfl, hpad, hstuff⟩ := plainSection_cons h
  exact decodeTable_cons_plain pid [] hpad hstuff

theorem decodeTable_of_sectionFor {cfg : Config} {r : Role} {sec : Bytes} (pid : Pid)
    (h : sectionFor cfg r sec = true) : decodeTable cfg pid [r] sec = .ok (tableInstr r sec) := by
  obtain ⟨hplain, hacc⟩ := Bool.and_eq_true_iff.1 h
  obtain ⟨tid, tail, rfl, hpad, hstuff⟩ := plainSection_cons hplain
  rw [decodeTable_cons_plain pid [r] hpad hstuff, List.find?_singleton,
    if_pos (show accepted cfg r tid = true from hacc)]
  rfl

theorem decodeTable_of_stuffing {cfg : Config} {sec : Bytes} (pid : Pid) (roles : List Role)
    (h : Instr.wf cfg (.secSt sec) = true) : decodeTable cfg pid roles sec = .ok (.secSt sec) := by
  simp only [Instr.wf, Bool.and_eq_true, bne_iff_ne] at h
  obtain ⟨⟨hwhole, hpad⟩, hstuff⟩ := h
  obtain ⟨tid, tail, rfl⟩ := wholeSection_cons hwhole
  exact (if_neg hpad).trans (if_pos hstuff)

theorem decodeExtracted_of_wf {cfg : Config} {pid : Pid} {sec : Bytes} (h : Instr.wf cfg (.secCrc pid sec) = true) :
    decodeExtracted cfg pid sec = .ok (.secCrc pid sec) := by
  simp only [Instr.wf, Bool.and_eq_true, Bool.not_eq_true'] at h
  obtain ⟨hwhole, hstuff⟩ := h
  obtain ⟨tid, tail, rfl⟩ := wholeSection_cons hwhole
  exact if_neg (Bool.eq_false_iff.1 hstuff)

/-! ## Descriptors -/

theorem decodeDescriptor_descriptorBytes {cfg : Config} {ns : Namespace} {tag : Byte} {kind : DescKind} {body : Bytes}
    (h : descFits cfg ns tag kind body = true) :
    decodeDescriptor cfg ns (descriptorBytes tag body) = .ok (descInstr cfg ns tag body) ∧
      kindOf cfg ns tag = kind := by
  simp only [descFits, bodyFits, Bool.and_eq_true, decide_eq_true_eq, beq_iff_eq] at h
  obtain ⟨hlen, hkind⟩ := h
  have hsplit := splitDescriptor_descriptorBytes tag body [] hlen
  rw [List.append_nil] at hsplit
  exact ⟨by rw [decodeDescriptor, hsplit], hkind⟩

/-! ## The obligations -/

theorem decode_encode_of_cmdWord {cfg : Config} {i : Instr} {w : BitVec 64} (h : encode cfg i = .cmdWord w) :
    decode cfg (encode cfg i) = .ok i := by
  rw [h]
  exact decodeCmd_of_encode h

/-- Settles O1: each format has its own inverse, and an instruction is of one format. -/
theorem decodeEncode : Obligations.DecodeEncode := by
  intro cfg i hwf
  cases i with
  | reset | setPidDsmcc | setPidAit | setPidPcr | setPidEbu | getErrors | getPackets | registerCb | unregisterCb
  | getField | getListLen | getDescListLenAll | getDescListLenForTag | getDescByIndex | getDescByTag | getDescField
  | dsmccIsComplete | dsmccDecode => exact decode_encode_of_cmdWord rfl
  | process | ack | secCc | secStart | secAppend | secDrain | secDispatch | ebuHeader | ebuLine => rfl
  | tspktRsv h | tspktPl h | tspktAf h | tspktAfpl h => exact decodePacket_packetBytes cfg _ h hwf
  | pcrDecode pid afl field => exact decodePcr_pcrPacketBytes cfg pid afl field
  | secCrc => exact decodeExtracted_of_wf hwf
  | secPat | secPmt | secDsmcc | secNit | secSdt | secEit | secTdt | secAit => exact decodeTable_of_sectionFor 0 hwf
  | secSt => exact decodeTable_of_stuffing 0 [] hwf
  | secStuff => rfl
  | secOther => exact decodeTable_of_plainSection 0 hwf
  | descCa | descIso639 | descCarouselId | descNetworkName | descServiceList | descService | descLinkage
  | descShortEvent | descExtEvent | descComponent | descStreamId | descContent | descParental | descTeletext
  | descSubtitling | descDataBcastId | descAppSignalling | descApplication | descAppName | descTransportProtocol
  | descGeneric =>
    obtain ⟨hdecode, hkind⟩ := decodeDescriptor_descriptorBytes hwf
    simp only [encode, decode, hdecode, descInstr, hkind]

/-- Settles O2: a word is its opcode and its fields, a packet its header fields and its other bytes. -/
theorem wordsHaveOneMeaning : Obligations.WordsHaveOneMeaning := by
  refine ⟨fun cfg w i h => ?word, fun cfg p i h => ?packet⟩
  case word =>
    have hword := encode_of_decodeCmd cfg h
    exact ⟨hword, wf_of_encode_cmdWord hword⟩
  case packet =>
    obtain ⟨afc, head, rest, hrest, rfl, rfl⟩ := decodePacket_eq_ok h
    exact ⟨encode_packetInstr cfg afc head rest, (wf_packetInstr cfg afc head rest).trans hrest⟩

/-- Settles O3: the units written out are the encodings of their instructions, so they decode to them as any encoding
does; the two malformed words are refused by the check that the error names. -/
theorem specUnitsDecode : Obligations.SpecUnitsDecode := by
  refine ⟨?setPid, ?forTag, rfl, rfl, ?packet, ?tdt, ?iso639, ?generic⟩
  case setPid => exact decodeCmd_of_encode (cfg := {}) rfl
  case forTag => exact decodeCmd_of_encode (cfg := {}) rfl
  case packet =>
    have hhead : be32 (headWord 0x47#8 ⟨false, true, false, 0#13, 0#2, 5#4⟩ 1) =
        [0x47#8, 0x40#8, 0x00#8, 0x15#8] := by decide
    rw [← hhead]
    exact decodePacket_packetBytes {} 1 ⟨false, true, false, 0#13, 0#2, 5#4⟩ (beq_iff_eq.2 List.length_replicate)
  case tdt => exact decodeEncode {} (.secTdt [0x70#8, 0x70#8, 0#8]) rfl
  case iso639 => exact decodeEncode {} (.descIso639 []) rfl
  case generic => exact decodeEncode {} (.descGeneric .ait 0x0A#8 []) rfl

end Sys2Proof
end

section
/-! Proofs of the family 40_host_commands.md: which commands a phase allows (R142, R171), and the commands that are no
accessors (R140, R143 to R151, R168). -/

namespace Sys2Proof.Machine

/-! ## Legality by phase (R142) -/

theorem inReady_of_ready {s : State} (t : State) (hp : s.phase = .ready) : inReady s t = .next t := by
  rw [inReady, if_pos hp]

theorem inReady_of_not_ready {s : State} (t : State) (hp : s.phase ≠ .ready) :
    inReady s t = .next (s.respond .refused) := by
  rw [inReady, if_neg hp]

theorem readCmd_of_not_inBatch {s : State} (r : Response) (hp : s.phase ≠ .inBatch) :
    readCmd s r = .next (s.respond r) := by
  rw [readCmd, if_neg hp]

theorem readCmd_of_inBatch {s : State} (r : Response) (hp : s.phase = .inBatch) :
    readCmd s r = .next (s.respond .refused) := by
  rw [readCmd, if_pos hp]

theorem State.phase_ne_ready_of_inBatch {s : State} (hp : s.phase = .inBatch) : s.phase ≠ .ready := by simp [hp]

/-- In a batch no command word is obeyed: it is a read, or legal in `READY` only. -/
theorem exec_refused_of_decodeCmd {s : State} {w : BitVec 64} {i : Instr} (hp : s.phase = .inBatch)
    (hi : decodeCmd w = .ok i) : exec i s = .next (s.respond .refused) := by
  have hword := encode_of_decodeCmd {} hi
  cases i with
  | getErrors | getPackets | getField | getListLen | getDescListLenAll | getDescListLenForTag | getDescByIndex
  | getDescByTag | getDescField | dsmccIsComplete => exact readCmd_of_inBatch _ hp
  | reset | setPidDsmcc | setPidAit | setPidPcr | setPidEbu | registerCb | unregisterCb | dsmccDecode =>
    exact inReady_of_not_ready _ (State.phase_ne_ready_of_inBatch hp)
  | _ => cases hword

theorem malformedWord_of_ready {s : State} (w : BitVec 64) (hp : s.phase = .ready) :
    malformedWord w s = .next (s.respond .rejected) := by
  rw [malformedWord, if_pos (.inl hp)]

theorem malformedWord_of_inBatch {s : State} (w : BitVec 64) (hp : s.phase = .inBatch) :
    malformedWord w s = .next (s.respond .refused) := by
  rw [malformedWord, if_neg (by simp [hp])]

/-- Settles O29: a command illegal in its phase is refused by the rule of its kind, and a malformed word is answered by
the phase in which the step finds it. -/
theorem phaseLegality : Obligations.PhaseLegality := by
  refine ⟨⟨rfl, rfl, rfl, rfl⟩, ?notReady, fun s w i => exec_refused_of_decodeCmd, ?malformed⟩
  case notReady =>
    rintro s i hp (rfl | ⟨_, rfl⟩ | ⟨_, rfl⟩ | ⟨_, rfl⟩ | ⟨_, rfl⟩ | ⟨_, rfl⟩ | ⟨_, rfl⟩ | rfl | ⟨_, rfl⟩) <;>
      exact inReady_of_not_ready _ hp
  case malformed =>
    intro s w n rest e hs he
    constructor
    · intro hp
      rw [step_host hs (.inl (by simp [hp])), hostStep_malformed _ he]
      exact malformedWord_of_ready w hp
    · intro hp hn
      rw [step_host hs (.inr hn), hostStep_malformed _ he]
      exact malformedWord_of_inBatch w hp

/-! ## RESET (R140) -/

/-- Settles O25: `cleared` writes each accumulated and decoded element, and the phase is `READY` as it was. -/
theorem resetClears : Obligations.ResetClears := by
  refine ⟨decodeCmd_of_encode (cfg := {}) rfl, fun s hp => (inReady_of_ready _ hp).trans ?_⟩
  rw [State.cleared, ← hp]
  rfl

/-! ## SET_PID_r (R143) -/

theorem Binding.is_iff {b : Binding} {pid : Pid} : b.is pid = true ↔ b.valid = true ∧ b.pid = pid := by
  simp [Binding.is]

section
variable {s : State} {others : List Binding} {pid : Pid}

theorem setPid_free (t : State) (hp : s.phase = .ready) (hfixed : pid ∉ fixedTablePids s.cfg)
    (hfree : ∀ b ∈ others, ¬(b.valid = true ∧ b.pid = pid)) : setPid s others pid t = .next (t.respond .done) := by
  have hothers : others.any (·.is pid) = false :=
    List.any_eq_false.2 fun b hb his => hfree b hb (Binding.is_iff.1 his)
  rw [setPid, inReady_of_ready _ hp, if_neg (by simp [hothers, hfixed])]

theorem setPid_fixed (t : State) (hp : s.phase = .ready) (hfixed : pid ∈ fixedTablePids s.cfg) :
    setPid s others pid t = .next (s.respond .rejected) := by
  rw [setPid, inReady_of_ready _ hp, if_pos (by simp [hfixed])]

theorem setPid_held (t : State) (hp : s.phase = .ready) (hheld : ⟨true, pid⟩ ∈ others) :
    setPid s others pid t = .next (s.respond .rejected) := by
  have hothers : others.any (·.is pid) = true :=
    List.any_eq_true.2 ⟨_, hheld, Binding.is_iff.2 ⟨rfl, rfl⟩⟩
  rw [setPid, inReady_of_ready _ hp, if_pos (by simp [hothers])]

end

/-- Settles O26: each `SET_PID_r` is `setPid` with the other three bindings; a PID that one of them holds is among
them. -/
theorem setPidBinds : Obligations.SetPidBinds := by
  intro s pid hp
  refine ⟨fun hfixed => ⟨setPid_free _ hp hfixed, setPid_free _ hp hfixed, setPid_free _ hp hfixed,
    setPid_free _ hp hfixed⟩, ?fixed, ?dsmcc, ?ait, ?pcr, ?ebu⟩
  case fixed =>
    intro hfixed
    simp only [List.forall_mem_cons]
    exact ⟨setPid_fixed _ hp hfixed, setPid_fixed _ hp hfixed, setPid_fixed _ hp hfixed, setPid_fixed _ hp hfixed,
      List.forall_mem_nil _⟩
  all_goals
    intro hheld
    simp only [List.forall_mem_cons]
    exact ⟨setPid_held _ hp (by simp [hheld]), setPid_held _ hp (by simp [hheld]), setPid_held _ hp (by simp [hheld]),
      List.forall_mem_nil _⟩

/-! ## Counters and DSMCC_DECODE (R148, R149, R168) -/

/-- Settles O27: two reads, and one command legal in `READY` only. -/
theorem simpleReads : Obligations.SimpleReads := by
  refine ⟨fun s hp => ⟨readCmd_of_not_inBatch _ hp, readCmd_of_not_inBatch _ hp⟩, fun s hp => ?_⟩
  exact inReady_of_ready _ hp

/-! ## Slots (R150, R151) -/

theorem unitNumber_toNat_lt (u : UnitId) : (unitNumber u).toNat < 10 := by cases u <;> decide

theorem unitNumber_toNat_inj {u v : UnitId} : (unitNumber u).toNat = (unitNumber v).toNat ↔ u = v := by
  refine ⟨fun h => ?_, fun h => by rw [h]⟩
  have hunit := congrArg unitOf (BitVec.eq_of_toNat_eq h)
  rw [unitOf_unitNumber, unitOf_unitNumber] at hunit
  exact Option.some.inj hunit

/-- The slots after a write: the slot of the unit is as written, every other slot as before. -/
theorem getLsbD_cbEnWith (cbEn : BitVec 10) (u v : UnitId) (on : Bool) :
    (cbEnWith cbEn u on).getLsbD (unitNumber v).toNat = if v = u then on else cbEn.getLsbD (unitNumber v).toNat := by
  have hv := unitNumber_toNat_lt v
  have hbit : (1#10 <<< (unitNumber u).toNat).getLsbD (unitNumber v).toNat = decide (v = u) := by
    rw [BitVec.getLsbD_shiftLeft, BitVec.getLsbD_one, Bool.eq_iff_iff, decide_eq_true_iff, ← unitNumber_toNat_inj]
    simp only [Bool.and_eq_true, Bool.not_eq_true', decide_eq_true_eq, decide_eq_false_iff_not]
    omega
  cases on with
  | true =>
    simp only [cbEnWith, if_true, BitVec.getLsbD_or, hbit]
    by_cases hvu : v = u <;> simp [hvu]
  | false =>
    simp only [cbEnWith, Bool.false_eq_true, if_false, BitVec.getLsbD_and, BitVec.getLsbD_not, hv, hbit]
    by_cases hvu : v = u <;> simp [hvu]

/-- Settles O28: each command writes the slot of its unit. -/
theorem slotCommands : Obligations.SlotCommands := by
  refine fun s u hp => ⟨⟨_, inReady_of_ready _ hp, rfl, ?_, fun v hv => ?_⟩,
    ⟨_, inReady_of_ready _ hp, rfl, ?_, fun v hv => ?_⟩⟩
  · exact (getLsbD_cbEnWith s.cbEn u u true).trans (if_pos rfl)
  · exact (getLsbD_cbEnWith s.cbEn u v true).trans (if_neg hv)
  · exact (getLsbD_cbEnWith s.cbEn u u false).trans (if_pos rfl)
  · exact (getLsbD_cbEnWith s.cbEn u v false).trans (if_neg hv)

end Sys2Proof.Machine
end

section
/-! The accessors GET_FIELD and GET_LIST_LEN (40_host_commands.md R152 to R161): one rule for each branch of their
answers, then the selector table of each unit. -/

namespace Sys2Proof.Machine

/-! ## What was found -/

theorem found_num (v : BitVec 64) : found (some (.num v)) = ⟨.ok, v, []⟩ := rfl

theorem found_none : found none = ⟨.notFound, 0, []⟩ := rfl

/-! ## GET_FIELD, branch by branch (R152) -/

section
variable {s : State} {u : UnitId} {sel : Byte}

/-- A table never decoded has no field (60_exceptions.md R377). -/
theorem getField_invalid (hp : s.phase ≠ .inBatch) (hv : s.tableValid u = false) :
    exec (.getField u sel 0 0) s = .next (s.respond ⟨.notFound, 0, []⟩) := by
  refine (readCmd_of_not_inBatch _ hp).trans ?_
  simp [getFieldResponse, getFieldMalformed, hv, Response.notFound]

theorem getField_scalar (hp : s.phase ≠ .inBatch) (hv : s.tableValid u = true) (hs : scalarSel u sel = true) :
    exec (.getField u sel 0 0) s = .next (s.respond (found (scalarOf s u sel))) := by
  refine (readCmd_of_not_inBatch _ hp).trans ?_
  simp [getFieldResponse, getFieldMalformed, hv, hs]

/-- What is neither a scalar nor a line is a field of an entry of the main list. -/
theorem getField_entry (hp : s.phase ≠ .inBatch) (hv : s.tableValid u = true) (hs : scalarSel u sel = false)
    (hl : lineSel u sel = false) (i : BitVec 16) :
    exec (.getField u sel i 0) s = .next (s.respond (found (entryOf s u sel i.toNat))) := by
  refine (readCmd_of_not_inBatch _ hp).trans ?_
  simp [getFieldResponse, getFieldMalformed, hv, hs, hl]

theorem getField_line (hp : s.phase ≠ .inBatch) (hl : lineSel .ebu sel = true) (i : BitVec 16) (j : BitVec 12) :
    exec (.getField .ebu sel i j) s = .next (s.respond (found (lineOf s sel i.toNat j.toNat))) := by
  refine (readCmd_of_not_inBatch _ hp).trans ?_
  simp [getFieldResponse, getFieldMalformed, State.tableValid, scalarSel, hl]

/-! ## GET_LIST_LEN, branch by branch (R153) -/

/-- What does not name the lines of a page is a main list or no list. -/
theorem getListLen_list (hp : s.phase ≠ .inBatch) (hl : ¬(u = .ebu ∧ sel = 0x14#8)) :
    exec (.getListLen u sel 0) s = .next (s.respond
      (if s.tableValid u = true ∧ sel = 0x10#8 then found ((mainLength s u).map countOf) else ⟨.notFound, 0, []⟩)) := by
  refine (readCmd_of_not_inBatch _ hp).trans ?_
  have hlines : (decide (u = .ebu) && sel == 0x14#8) = false := by simpa using hl
  by_cases hv : s.tableValid u = true <;> by_cases hs : sel = 0x10#8 <;>
    simp [getListLenResponse, Response.notFound, hlines, hv, hs]

theorem getListLen_main {n : Nat} (hp : s.phase ≠ .inBatch) (hv : s.tableValid u = true)
    (hn : mainLength s u = some n) : lengthRead s u n := by
  rw [lengthRead, getListLen_list hp (by simp), if_pos ⟨hv, rfl⟩, hn]
  rfl

theorem getListLen_lines (hp : s.phase ≠ .inBatch) (i : BitVec 16) :
    exec (.getListLen .ebu 0x14#8 i) s =
      .next (s.respond (found ((linesOf s i.toNat).map fun l => countOf l.length))) := by
  refine (readCmd_of_not_inBatch _ hp).trans ?_
  simp [getListLenResponse, State.tableValid]

/-- Selector `0x10` is the only one of a main list, and units 5 and 8 have no list. -/
theorem getListLen_noList (hp : s.phase ≠ .inBatch) (hs : sel ≠ 0x10#8 ∨ u = .tdt ∨ u = .pcr)
    (hl : ¬(u = .ebu ∧ sel = 0x14#8)) : exec (.getListLen u sel 0) s = .next (s.respond ⟨.notFound, 0, []⟩) := by
  rw [getListLen_list hp hl]
  split
  next h =>
    obtain hsel | rfl | rfl := hs
    · exact absurd h.2 hsel
    · rfl
    · rfl
  next => rfl

theorem getListLen_invalid (hp : s.phase ≠ .inBatch) (hv : s.tableValid u = false) :
    exec (.getListLen u 0x10#8 0) s = .next (s.respond ⟨.notFound, 0, []⟩) := by
  rw [getListLen_list hp (by simp), if_neg (by simp [hv])]

/-! ## Selector tables -/

theorem scalarsRead_of {l : List (Byte × BitVec 64)} (hp : s.phase ≠ .inBatch) (hv : s.tableValid u = true)
    (h : ∀ f ∈ l, scalarSel u f.1 = true ∧ scalarOf s u f.1 = some (.num f.2)) : scalarsRead s u l := by
  intro f hf
  obtain ⟨hsel, hval⟩ := h f hf
  rw [getField_scalar hp hv hsel, hval, found_num]

/-- A per-entry selector reads its field of the entry at the ordinal. -/
theorem entriesRead_of {α : Type} {l : List α} {fields : List (Byte × (α → BitVec 64))} (hp : s.phase ≠ .inBatch)
    (hv : s.tableValid u = true)
    (h : ∀ f ∈ fields, scalarSel u f.1 = false ∧ lineSel u f.1 = false ∧
      ∀ i, entryOf s u f.1 i = l[i]?.map fun e => .num (f.2 e)) : entriesRead s u l fields := by
  intro f hf i
  obtain ⟨hscalar, hline, hentry⟩ := h f hf
  rw [getField_entry hp hv hscalar hline, hentry]
  cases l[i.toNat]? <;> rfl

theorem entriesRead_at {α : Type} {l : List α} {fields : List (Byte × (α → BitVec 64))} {i : BitVec 16} {e : α}
    (h : entriesRead s u l fields) (he : l[i.toNat]? = some e) :
    ∀ f ∈ fields, exec (.getField u f.1 i 0) s = .next (s.respond ⟨.ok, f.2 e, []⟩) := by
  intro f hf
  rw [h f hf, he]

theorem entriesRead_past {α : Type} {l : List α} {fields : List (Byte × (α → BitVec 64))} {i : BitVec 16}
    (h : entriesRead s u l fields) (hi : l.length ≤ i.toNat) :
    ∀ f ∈ fields, exec (.getField u f.1 i 0) s = .next (s.respond ⟨.notFound, 0, []⟩) := by
  intro f hf
  rw [h f hf, List.getElem?_eq_none hi]

end

section
variable {s : State}

/-! ## PAT (R154) -/

theorem patScalars (hp : s.phase ≠ .inBatch) (hv : s.pat.valid = true) :
    scalarsRead s .pat (headerScalars s.pat.header) :=
  scalarsRead_of hp hv (by simp [headerScalars, scalarSel, scalarOf, headerField, numOf])

theorem patEntries (hp : s.phase ≠ .inBatch) (hv : s.pat.valid = true) :
    entriesRead s .pat s.pat.programs
      [(0x10#8, fun e => e.programNumber.setWidth 64), (0x11#8, fun e => e.pid.setWidth 64)] :=
  entriesRead_of hp hv (by simp [scalarSel, lineSel, entryOf, elemAt, numOf])

/-- Settles O30: the selector table of the PAT, read selector by selector. -/
theorem getFieldPat : Obligations.GetFieldPat := by
  refine fun s hp => ⟨fun hv => ?_, fun u sel => getField_invalid hp⟩
  have hscalars := patScalars hp hv
  simp only [scalarsRead, headerScalars, List.forall_mem_cons] at hscalars
  obtain ⟨h0, h1, h2, h3, h4, h5, h6, h7, -⟩ := hscalars
  refine ⟨h0, h1, h2, h3, h4, h5, h6, h7, fun i e he => ?_, fun i hi => ?_⟩
  · have hentry := entriesRead_at (patEntries hp hv) he
    simp only [List.forall_mem_cons] at hentry
    obtain ⟨hnumber, hpid, -⟩ := hentry
    exact ⟨hnumber, hpid⟩
  · have hentry := entriesRead_past (patEntries hp hv) hi
    simp only [List.forall_mem_cons] at hentry
    obtain ⟨hnumber, hpid, -⟩ := hentry
    exact ⟨hnumber, hpid⟩

/-! ## TDT, DSMCC, PCR (R158, R160, R161) -/

/-- The TDT has no long header and no list. -/
theorem tdt_noField (hp : s.phase ≠ .inBatch) (hv : s.tdt.valid = true) {sel : Byte}
    (hs : sel ∈ [0x03#8, 0x04#8, 0x05#8, 0x06#8, 0x07#8]) :
    exec (.getField .tdt sel 0 0) s = .next (s.respond ⟨.notFound, 0, []⟩) := by
  have hscalar : ∀ x ∈ [0x03#8, 0x04#8, 0x05#8, 0x06#8, 0x07#8], scalarSel .tdt x = false := by decide
  exact getField_entry (u := .tdt) hp hv (hscalar sel hs) rfl 0

/-- The bytes of a collected section (R160). -/
theorem dsmccBytes (hp : s.phase ≠ .inBatch) (i : BitVec 16) :
    exec (.getField .dsmcc 0x15#8 i 0) s = .next (s.respond
      (match s.dsmcc.sections[i.toNat]? with
       | some e => ⟨.ok, 0, e.bytes⟩
       | none => ⟨.notFound, 0, []⟩)) := by
  rw [getField_entry hp rfl rfl rfl]
  have hentry : entryOf s .dsmcc 0x15#8 i.toNat = s.dsmcc.sections[i.toNat]?.map fun e => .str e.bytes := rfl
  rw [hentry]
  cases s.dsmcc.sections[i.toNat]? <;> rfl

theorem pcrScalar (hp : s.phase ≠ .inBatch) :
    exec (.getField .pcr 0x08#8 0 0) s =
      .next (s.respond (if s.pcr.valid then ⟨.ok, s.pcr.value.setWidth 64, []⟩ else ⟨.notFound, 0, []⟩)) := by
  rw [getField_scalar hp rfl rfl]
  cases hv : s.pcr.valid <;> simp [scalarOf, hv, found, numOf, Response.scalar, Response.notFound]

end

/-! ## The order of the EBU pages (45_packet_decoders.md R358) -/

theorem toNat_append_eq {m n : Nat} (x : BitVec m) (y : BitVec n) : (x ++ y).toNat = x.toNat * 2 ^ n + y.toNat := by
  rw [BitVec.toNat_append, ← Nat.shiftLeft_add_eq_or_of_lt y.isLt, Nat.shiftLeft_eq]

/-- The number of a key has its parts as digits. -/
theorem keyIndex_eq (k : EbuKey) :
    keyIndex k = k.magazine.toNat * 2 ^ 24 + k.page.toNat * 2 ^ 16 + k.subpage.toNat := by
  rw [keyIndex, toNat_append_eq, toNat_append_eq]
  omega

/-- Numeric order is the order of (magazine, page, subpage). -/
theorem lex_of_keyIndex_lt {k m : EbuKey} (h : keyIndex k < keyIndex m) :
    k.magazine < m.magazine ∨ (k.magazine = m.magazine ∧
      (k.page < m.page ∨ (k.page = m.page ∧ k.subpage < m.subpage))) := by
  rw [keyIndex_eq, keyIndex_eq] at h
  have hpage := k.page.isLt
  have hpage' := m.page.isLt
  have hsub := k.subpage.isLt
  have hsub' := m.subpage.isLt
  simp only [BitVec.lt_def, ← BitVec.toNat_inj]
  omega

theorem keyIndex_keyOfIndex {n : Nat} (h : n < 2 ^ 28) : keyIndex (keyOfIndex n) = n := by
  simp only [keyIndex, keyOfIndex]
  simp (disch := decide) only [BitVec.extractLsb'_append_extractLsb'_eq_extractLsb', BitVec.extractLsb'_eq_self]
  exact Nat.mod_eq_of_lt h

theorem SMap.lt_of_getElem? {α : Type} [DecidableEq α] {d : α} {l : List (Nat × α)} (h : SMap.wf d l = true)
    {i j : Nat} {x y : Nat × α} (hi : l[i]? = some x) (hj : l[j]? = some y) (hij : i < j) : x.1 < y.1 := by
  induction l generalizing i j with
  | nil => cases hi
  | cons e l ih =>
    obtain ⟨-, hlt, hwf⟩ := (SMap.wf_cons d e.1 e.2 l).1 h
    cases j with
    | zero => omega
    | succ j =>
      cases i with
      | zero =>
        obtain rfl := Option.some.inj hi
        exact hlt y (List.mem_of_getElem? hj)
      | succ i => exact ih hwf hi hj (by omega)

/-- A store lists exactly the keys that do not read as the default. -/
theorem SMap.mem_iff {α : Type} [DecidableEq α] {d : α} {l : List (Nat × α)} (h : SMap.wf d l = true) (k : Nat) (x : α) :
    (k, x) ∈ l ↔ x = SMap.get d k l ∧ x ≠ d := by
  induction l with
  | nil => simp [SMap.get]
  | cons e l ih =>
    obtain ⟨j, y⟩ := e
    obtain ⟨hy, hlt, hwf⟩ := (SMap.wf_cons d j y l).1 h
    rw [List.mem_cons, ih hwf, SMap.get, Prod.mk.injEq]
    by_cases hjk : j = k
    · subst hjk
      rw [if_pos rfl, SMap.get_of_lt d j l hlt]
      constructor
      · rintro (⟨-, rfl⟩ | ⟨rfl, hne⟩)
        · exact ⟨rfl, hy⟩
        · exact absurd rfl hne
      · rintro ⟨rfl, -⟩
        exact .inl ⟨rfl, rfl⟩
    · rw [if_neg hjk]
      simp [Ne.symm hjk]

section
variable {s : State}

/-- The pages of the map, in ascending order of their keys. -/
theorem ebu_pages (hwf : Memory.wf s = true) :
    (∀ (k : EbuKey) (pg : EbuPage), (keyIndex k, pg) ∈ s.ebu ↔ pg = s.pageOf k ∧ pg ≠ ⟨false, []⟩) ∧
    (∀ e ∈ s.ebu, ∃ k, e.1 = keyIndex k) ∧
    ∀ (i j : Nat) (k m : EbuKey) (p q : EbuPage), s.ebu[i]? = some (keyIndex k, p) → s.ebu[j]? = some (keyIndex m, q) →
      i < j → k.magazine < m.magazine ∨ (k.magazine = m.magazine ∧
        (k.page < m.page ∨ (k.page = m.page ∧ k.subpage < m.subpage))) := by
  obtain ⟨-, -, hpages, hbelow⟩ := (Memory.wf_iff s).1 hwf
  refine ⟨fun k pg => SMap.mem_iff hpages _ _, fun e he => ⟨keyOfIndex e.1, ?_⟩,
    fun i j k m p q hi hj hij => lex_of_keyIndex_lt (SMap.lt_of_getElem? hpages hi hj hij)⟩
  have hlt := List.all_eq_true.1 hbelow e he
  exact (keyIndex_keyOfIndex (of_decide_eq_true hlt)).symm

/-! ## EBU (R161) -/

theorem ebuEntries (hp : s.phase ≠ .inBatch) :
    entriesRead s .ebu s.ebu
      [(0x10#8, fun e => (keyOfIndex e.1).magazine.setWidth 64), (0x11#8, fun e => (keyOfIndex e.1).page.setWidth 64),
       (0x12#8, fun e => (keyOfIndex e.1).subpage.setWidth 64),
       (0x13#8, fun e => (BitVec.ofBool e.2.isOpen).setWidth 64)] :=
  entriesRead_of hp rfl (by simp [scalarSel, lineSel, entryOf, elemAt, numOf])

theorem lineOf_some {i : Nat} {e : Nat × EbuPage} (he : s.ebu[i]? = some e) (j : Nat) :
    lineOf s 0x14#8 i j = (e.2.lines[j]?.map fun ln => numOf ln.row) ∧
      lineOf s 0x15#8 i j = e.2.lines[j]?.map fun ln => .str ln.data := by
  simp [lineOf, linesOf, he, elemAt, strElemAt]

theorem lineOf_none {i : Nat} (hi : s.ebu.length ≤ i) (sel : Byte) (j : Nat) : lineOf s sel i j = none := by
  simp [lineOf, linesOf, hi]

/-- What is read of the page with an ordinal, and of its lines. -/
theorem ebu_pageReads (hp : s.phase ≠ .inBatch) {i : BitVec 16} {k : EbuKey} {pg : EbuPage}
    (hpage : s.ebu[i.toNat]? = some (keyIndex k, pg)) :
    exec (.getField .ebu 0x10#8 i 0) s = .next (s.respond ⟨.ok, k.magazine.setWidth 64, []⟩) ∧
    exec (.getField .ebu 0x11#8 i 0) s = .next (s.respond ⟨.ok, k.page.setWidth 64, []⟩) ∧
    exec (.getField .ebu 0x12#8 i 0) s = .next (s.respond ⟨.ok, k.subpage.setWidth 64, []⟩) ∧
    exec (.getField .ebu 0x13#8 i 0) s = .next (s.respond ⟨.ok, if pg.isOpen then 1 else 0, []⟩) ∧
    exec (.getListLen .ebu 0x14#8 i) s = .next (s.respond ⟨.ok, BitVec.ofNat 64 pg.lines.length, []⟩) ∧
    ∀ j : BitVec 12,
      exec (.getField .ebu 0x14#8 i j) s = .next (s.respond
        (match pg.lines[j.toNat]? with
         | some ln => ⟨.ok, ln.row.setWidth 64, []⟩
         | none => ⟨.notFound, 0, []⟩)) ∧
      exec (.getField .ebu 0x15#8 i j) s = .next (s.respond
        (match pg.lines[j.toNat]? with
         | some ln => ⟨.ok, 0, ln.data⟩
         | none => ⟨.notFound, 0, []⟩)) := by
  have hentry := entriesRead_at (ebuEntries hp) hpage
  simp only [List.forall_mem_cons, keyOfIndex_keyIndex] at hentry
  obtain ⟨hmagazine, hnumber, hsubpage, hopen, -⟩ := hentry
  refine ⟨hmagazine, hnumber, hsubpage, hopen.trans ?_, ?_, fun j => ⟨?_, ?_⟩⟩
  · cases pg.isOpen <;> rfl
  · rw [getListLen_lines hp, linesOf, hpage]
    rfl
  · rw [getField_line hp rfl, (lineOf_some hpage _).1]
    cases pg.lines[j.toNat]? <;> rfl
  · rw [getField_line hp rfl, (lineOf_some hpage _).2]
    cases pg.lines[j.toNat]? <;> rfl

theorem ebu_pastTheEnd (hp : s.phase ≠ .inBatch) {i : BitVec 16} (hi : s.ebu.length ≤ i.toNat) :
    (∀ sel ∈ [0x10#8, 0x11#8, 0x12#8, 0x13#8],
      exec (.getField .ebu sel i 0) s = .next (s.respond ⟨.notFound, 0, []⟩)) ∧
    exec (.getListLen .ebu 0x14#8 i) s = .next (s.respond ⟨.notFound, 0, []⟩) ∧
    ∀ j, exec (.getField .ebu 0x14#8 i j) s = .next (s.respond ⟨.notFound, 0, []⟩) ∧
      exec (.getField .ebu 0x15#8 i j) s = .next (s.respond ⟨.notFound, 0, []⟩) := by
  have hnone : s.ebu[i.toNat]? = none := List.getElem?_eq_none hi
  have hentry := entriesRead_past (ebuEntries hp) hi
  simp only [List.forall_mem_cons] at hentry ⊢
  obtain ⟨hmagazine, hnumber, hsubpage, hopen, -⟩ := hentry
  refine ⟨⟨hmagazine, hnumber, hsubpage, hopen, List.forall_mem_nil _⟩, ?_, fun j => ⟨?_, ?_⟩⟩
  · rw [getListLen_lines hp, linesOf, hnone]
    rfl
  · rw [getField_line hp rfl, lineOf_none hi, found_none]
  · rw [getField_line hp rfl, lineOf_none hi, found_none]

end

/-! ## The selector tables of the other units (R155 to R161) -/

/-- Settles O31: each unit's selector table by the rules for scalars, entries and lists. -/
theorem fieldAndListReads : Obligations.FieldAndListReads := by
  refine fun s hp =>
    ⟨fun hv => ⟨scalarsRead_of hp hv ?pmtScalars, entriesRead_of hp hv ?pmtEntries, getListLen_main hp hv rfl⟩,
     fun hv => ⟨scalarsRead_of hp hv ?nitScalars, entriesRead_of hp hv ?nitEntries, getListLen_main hp hv rfl⟩,
     fun hv => ⟨scalarsRead_of hp hv ?sdtScalars, entriesRead_of hp hv ?sdtEntries, getListLen_main hp hv rfl⟩,
     fun hv => ⟨scalarsRead_of hp hv ?eitScalars, entriesRead_of hp hv ?eitEntries, getListLen_main hp hv rfl⟩,
     fun hv => ⟨scalarsRead_of hp hv ?tdtScalars, fun _ => tdt_noField hp hv⟩,
     fun hv => ⟨scalarsRead_of hp hv ?aitScalars, entriesRead_of hp hv ?aitEntries, getListLen_main hp hv rfl⟩,
     fun hv => getListLen_main hp hv rfl,
     ⟨scalarsRead_of hp rfl ?dsmccScalars, entriesRead_of hp rfl ?dsmccEntries, dsmccBytes hp,
       getListLen_main hp rfl rfl⟩,
     pcrScalar hp,
     ⟨getListLen_main hp rfl rfl, fun _ _ _ => ebu_pageReads hp, fun _ => ebu_pastTheEnd hp, ebu_pages⟩,
     fun _ _ => getListLen_noList hp, fun _ => getListLen_invalid hp⟩
  case pmtScalars | nitScalars | sdtScalars | eitScalars | tdtScalars | dsmccScalars =>
    simp [headerScalars, scalarSel, scalarOf, headerField, numOf]
  case aitScalars =>
    simp [headerScalars, scalarSel, scalarOf, headerField, numOf, applicationType, testApplicationFlag]
  case pmtEntries | nitEntries | sdtEntries | eitEntries | aitEntries | dsmccEntries =>
    simp [scalarSel, lineSel, entryOf, elemAt, numOf]

end Sys2Proof.Machine
end

section
/-! The descriptor commands (40_host_commands.md R162 to R166): the paths that name a descriptor list, the descriptors of
a tag in a list, and the answers of the commands on a path that names a list and on one that names none. -/

namespace Sys2Proof.Machine

/-! ## List paths (R155 to R160) -/

theorem resolve_invalid {s : State} {u : UnitId} (hv : s.tableValid u = false) (sel : Byte) (i : Nat) :
    resolve s u sel i = none := by
  simp [resolve, hv]

/-- The paths that can name a descriptor list. -/
def listPaths : List (UnitId × Byte) :=
  [(.pmt, 0x20#8), (.pmt, 0x21#8), (.nit, 0x20#8), (.nit, 0x21#8), (.sdt, 0x21#8), (.eit, 0x21#8), (.ait, 0x20#8),
    (.ait, 0x21#8)]

theorem resolve_of_not_listPath {s : State} {u : UnitId} {sel : Byte} (h : (u, sel) ∉ listPaths) (i : Nat) :
    resolve s u sel i = none := by
  have hsel {n : Byte} (hn : sel.toNat = n.toNat) : sel = n := BitVec.eq_of_toNat_eq hn
  unfold resolve
  split
  · rfl
  split
  case h_9 => rfl
  case h_1 hn _ | h_2 hn _ | h_3 hn _ =>
    obtain rfl := hsel (n := 0x20#8) hn
    exact absurd (by decide) h
  case h_4 hn _ | h_5 hn _ | h_6 hn _ | h_7 hn _ | h_8 hn _ =>
    obtain rfl := hsel (n := 0x21#8) hn
    exact absurd (by decide) h

/-! ## The descriptors of a tag (44_descriptors.md R305) -/

theorem matchesOf_cons (d : Descriptor) (l : List Descriptor) (tag : Byte) :
    matchesOf (d :: l) tag = (if d.tag = tag then [0] else []) ++ (matchesOf l tag).map (· + 1) := by
  rw [matchesOf, List.length_cons, List.range_succ_eq_map, List.filter_cons, List.filter_map, matchesOf]
  by_cases hd : d.tag = tag <;> simp [hd, Function.comp_def]

theorem length_matchesOf (l : List Descriptor) (tag : Byte) :
    (matchesOf l tag).length = (l.filter (·.tag == tag)).length := by
  induction l with
  | nil => rfl
  | cons d l ih =>
    rw [matchesOf_cons, List.length_append, List.length_map, ih, List.filter_cons]
    by_cases hd : d.tag = tag <;> simp [hd, Nat.add_comm]

/-- A descriptor of the tag stands in `matchesOf` after those before it. -/
theorem getElem?_matchesOf {l : List Descriptor} {j : Nat} {d : Descriptor} (hj : l[j]? = some d) :
    (matchesOf l d.tag)[((l.take j).filter (·.tag == d.tag)).length]? = some j := by
  induction l generalizing j with
  | nil => cases hj
  | cons a l ih =>
    rw [matchesOf_cons]
    cases j with
    | zero =>
      obtain rfl := Option.some.inj hj
      simp
    | succ j =>
      have htail := ih hj
      by_cases ha : a.tag = d.tag <;> simp [ha, htail]

/-! ## The summary of a descriptor (R164) -/

theorem descSummary_eq (d : Descriptor) : descSummary d =
    BitVec.ofNat 64 ((kindNumber (kindOfInfo d.info)).toNat * 2 ^ 16 + d.tag.toNat * 2 ^ 8 + d.length.toNat) := by
  have hnat : (kindNumber (kindOfInfo d.info) ++ d.tag ++ d.length).toNat =
      (kindNumber (kindOfInfo d.info)).toNat * 2 ^ 16 + d.tag.toNat * 2 ^ 8 + d.length.toNat := by
    rw [toNat_append_eq, toNat_append_eq]
    omega
  rw [descSummary, ← hnat]
  exact BitVec.eq_of_toNat_eq (by simp)

/-! ## A command over a list (section 7) -/

section
variable {s : State} {u : UnitId} {sel : Byte} {i : BitVec 16}

/-- A path that names no list is `NOT_FOUND` (60_exceptions.md R377). -/
theorem readList_none (k : List Descriptor → Response) (hp : s.phase ≠ .inBatch) (hi : sel = 0x20#8 → i = 0)
    (hr : resolve s u sel i.toNat = none) :
    readCmd s (withList s u sel i k) = .next (s.respond ⟨.notFound, 0, []⟩) := by
  rw [readCmd_of_not_inBatch _ hp, withList, if_neg (by simpa using hi), hr]
  rfl

theorem readList_some (k : List Descriptor → Response) {l : List Descriptor} (hp : s.phase ≠ .inBatch)
    (hi : sel = 0x20#8 → i = 0) (hr : resolve s u sel i.toNat = some l) :
    readCmd s (withList s u sel i k) = .next (s.respond (k l)) := by
  rw [readCmd_of_not_inBatch _ hp, withList, if_neg (by simpa using hi), hr]

end

/-- Settles O32: the paths, then each command as a function of the list that its path names. -/
theorem descriptorReads : Obligations.DescriptorReads := by
  refine ⟨fun s i => ⟨?pmt, ?nit, ?sdt, ?eit, ?ait, fun u sel hv => resolve_invalid hv sel i,
    fun u sel h => resolve_of_not_listPath h i⟩, ?none, ?some⟩
  case pmt | nit | sdt | eit | ait =>
    intro hv
    simp [resolve, State.tableValid, hv]
  case none =>
    intro s u sel i hp hi hr
    exact ⟨readList_none _ hp hi hr, fun _ => readList_none _ hp hi hr, fun _ => ⟨readList_none _ hp hi hr,
      fun _ => readList_none _ hp hi hr, fun _ _ => readList_none _ hp hi hr⟩⟩
  case some =>
    intro s u sel i l hp hi hr
    refine ⟨readList_some _ hp hi hr, fun tag => ?forTag, fun k d hd => ⟨?byIndex, fun fid e => ?field⟩,
      fun k hk => ⟨?indexPast, fun fid e => ?fieldPast⟩, fun n tag j d hj htag hn => ?byTag, fun n tag hn => ?tagPast⟩
    all_goals refine (readList_some _ hp hi hr).trans ?_
    case forTag =>
      rw [length_matchesOf]
      rfl
    case byIndex => rw [hd, Option.map_some, descSummary_eq, found_num]
    case field => rw [hd, Option.bind_some]
    case indexPast => rw [List.getElem?_eq_none hk, Option.map_none, found_none]
    case fieldPast => rw [List.getElem?_eq_none hk, Option.bind_none, found_none]
    case byTag =>
      subst htag
      rw [← hn, getElem?_matchesOf hj]
      rfl
    case tagPast =>
      rw [List.getElem?_eq_none (by rwa [length_matchesOf]), Option.map_none, found_none]

end Sys2Proof.Machine
end

section
/-! Packets of the family 41_packet_deframe_route.md: the batch that `PROCESS` starts (R180, R181), the header latch and
the payload of a packet by its bytes (R182, R183), the roles of a PID and the routing by them (R184 to R190). -/

namespace Sys2Proof.Machine

/-! ## PROCESS (R180) -/

/-- Settles O34: `PROCESS` is legal in `READY`. -/
theorem processStarts : Obligations.ProcessStarts := fun _ _ hp => inReady_of_ready _ hp

/-! ## The header by its bytes (R101, R182) -/

theorem append_bytes_assoc (a b c d : Byte) : a ++ b ++ (c ++ d) = a ++ (b ++ c) ++ d :=
  BitVec.eq_of_toNat_eq (by simp only [toNat_append_eq]; omega)

/-- The header fields lie in packet bytes 1 to 3; the PID is in `u16(P,1)`. -/
theorem headOf_u32 (p : Bytes) :
    headOf (u32 p 0) = ⟨(byteAt p 1).getLsbD 7, (byteAt p 1).getLsbD 6, (byteAt p 1).getLsbD 5,
      (u16 p 1).extractLsb' 0 13, (byteAt p 3).extractLsb' 6 2, (byteAt p 3).extractLsb' 0 4⟩ := by
  have hword : u32 p 0 = byteAt p 0 ++ u16 p 1 ++ byteAt p 3 := append_bytes_assoc ..
  have hpid : (u32 p 0).extractLsb' 8 13 = (u16 p 1).extractLsb' 0 13 := by
    rw [hword, BitVec.extractLsb'_append_eq_of_le (by decide), BitVec.extractLsb'_append_eq_of_add_le (by decide)]
  rw [headOf, hpid]
  simp (disch := decide) only [u32, u16, BitVec.getLsbD_append, BitVec.extractLsb'_append_eq_of_add_le]
  rfl

theorem afc_u32 (p : Bytes) : (u32 p 0).extractLsb' 4 2 = (byteAt p 3).extractLsb' 4 2 := by
  simp (disch := decide) only [u32, u16, BitVec.extractLsb'_append_eq_of_add_le]

/-- Packet bytes 4 to 187 are `rest`. -/
theorem byteAt_packetBytes (sync : Byte) (afc : BitVec 2) (h : PktHead) (rest : Bytes) (n : Nat) :
    byteAt (packetBytes sync afc h rest) (n + 4) = byteAt rest n := rfl

/-! ## The adaptation field (R182) -/

section
variable {afc : BitVec 2} {h : PktHead} {rest : Bytes}

theorem latch_without_af (ha : afc.getLsbD 1 = false) :
    latch afc h rest = { tei := h.tei, pusi := h.pusi, prio := h.prio, pid := h.pid, tsc := h.tsc,
                         afc := afc, cc := h.cc, afl := 0, afOk := true, afFlags := 0, plOff := 4 } := by
  simp [latch, ha, -BitVec.getLsbD_eq_getElem]

/-- An adaptation field that ends in the packet; the payload begins behind it. -/
theorem latch_with_af (ha : afc.getLsbD 1 = true) (hfit : 5 + (byteAt rest 0).toNat ≤ 188) :
    latch afc h rest = { tei := h.tei, pusi := h.pusi, prio := h.prio, pid := h.pid, tsc := h.tsc,
                         afc := afc, cc := h.cc, afl := byteAt rest 0, afOk := true,
                         afFlags := if 1 ≤ (byteAt rest 0).toNat then byteAt rest 1 else 0,
                         plOff := 5 + byteAt rest 0 } := by
  simp [latch, ha, packetLength, hfit, -BitVec.getLsbD_eq_getElem]

/-- An adaptation field that overruns the packet leaves no payload. -/
theorem latch_with_overrun (ha : afc.getLsbD 1 = true) (hover : ¬5 + (byteAt rest 0).toNat ≤ 188) :
    latch afc h rest = { tei := h.tei, pusi := h.pusi, prio := h.prio, pid := h.pid, tsc := h.tsc,
                         afc := afc, cc := h.cc, afl := byteAt rest 0, afOk := false, afFlags := 0, plOff := 188 } := by
  simp [latch, ha, packetLength, hover, -BitVec.getLsbD_eq_getElem]

theorem plOff_with_af (ha : afc.getLsbD 1 = true) (hfit : 5 + (byteAt rest 0).toNat ≤ 188) :
    (latch afc h rest).plOff.toNat = 5 + (byteAt rest 0).toNat := by
  rw [latch_with_af ha hfit, BitVec.toNat_add]
  exact Nat.mod_eq_of_lt (by simp only [BitVec.reduceToNat]; omega)

theorem four_le_plOff (afc : BitVec 2) (h : PktHead) (rest : Bytes) : 4 ≤ (latch afc h rest).plOff.toNat := by
  cases ha : afc.getLsbD 1 with
  | false => simp [latch_without_af ha]
  | true =>
    by_cases hfit : 5 + (byteAt rest 0).toNat ≤ 188
    · rw [plOff_with_af ha hfit]
      omega
    · simp [latch_with_overrun ha hfit]

/-! ## The payload (R183) -/

theorem payloadOf_latch (sync : Byte) (hr : rest.length = 184) :
    payloadOf (latch afc h rest) rest =
      if afc.getLsbD 0 then (packetBytes sync afc h rest).drop (latch afc h rest).plOff.toNat else [] := by
  obtain ⟨n, hn⟩ := Nat.exists_eq_add_of_le (four_le_plOff afc h rest)
  have hslice : slice rest n 184 = (packetBytes sync afc h rest).drop (4 + n) := by
    rw [slice, List.take_of_length_le hr.le, ← List.drop_drop, drop_packetBytes]
  rw [payloadOf, hn, Nat.add_sub_cancel_left, hslice]
  rfl

end

/-- Settles O35: the header fields are those of the header word at its bytes, then the three kinds of adaptation
field. -/
theorem latchAndPayload : Obligations.LatchAndPayload := by
  rintro sync afc h rest P hr rfl
  have hhead := headOf_u32 (packetBytes sync afc h rest)
  have hafc := afc_u32 (packetBytes sync afc h rest)
  rw [u32_packetBytes, headOf_headWord] at hhead
  rw [u32_packetBytes, afc_headWord] at hafc
  refine ⟨congrArg PktHead.pid hhead, congrArg PktHead.pusi hhead, congrArg PktHead.tei hhead,
    congrArg PktHead.prio hhead, congrArg PktHead.tsc hhead, hafc, congrArg PktHead.cc hhead,
    fun ha => ?without, fun ha => ?af, payloadOf_latch sync hr⟩
  case without => simp [latch_without_af ha]
  case af =>
    rw [byteAt_packetBytes (n := 0), byteAt_packetBytes (n := 1)]
    by_cases hfit : 5 + (byteAt rest 0).toNat ≤ 188
    · rw [plOff_with_af ha hfit]
      simp [latch_with_af ha hfit, hfit]
    · simp [latch_with_overrun ha hfit, hfit]

/-! ## The roles of a PID (R187) -/

section
variable {s : State} {p : Pid}

theorem mem_pmtPids :
    p ∈ pmtPids s ↔ s.pat.valid = true ∧ ∃ e ∈ s.pat.programs, e.programNumber ≠ 0 ∧ e.pid = p := by
  simp [pmtPids, and_assoc]

theorem mem_allRoles (r : Role) : r ∈ allRoles := by cases r <;> decide

theorem mem_roles {r : Role} : r ∈ roles s p ↔ hasRole s p r = true := by
  simp [roles, mem_allRoles]

theorem hasRole_pmt :
    hasRole s p .pmt = true ↔ s.pat.valid = true ∧ ∃ e ∈ s.pat.programs, e.programNumber ≠ 0 ∧ e.pid = p := by
  rw [← mem_pmtPids, hasRole, List.contains_iff_mem]

theorem hasRole_ait : hasRole s p .ait = true ↔ s.bind.ait.valid = true ∧ s.bind.ait.pid = p := Binding.is_iff

theorem hasRole_dsmcc : hasRole s p .dsmcc = true ↔ s.bind.dsmcc.valid = true ∧ s.bind.dsmcc.pid = p := Binding.is_iff

/-- A table PID is one with a role: a fixed table PID, a bound one, or one of the committed PAT. -/
theorem isTablePid_iff :
    isTablePid s p = true ↔ p ∈ fixedTablePids s.cfg ∨ hasRole s p .ait = true ∨ hasRole s p .dsmcc = true ∨
      hasRole s p .pmt = true := by
  have hfixed : p ∈ fixedTablePids s.cfg ↔ hasRole s p .pat = true ∨ hasRole s p .nit = true ∨
      hasRole s p .sdt = true ∨ hasRole s p .eit = true ∨ hasRole s p .tdt = true := by
    simp [fixedTablePids, hasRole]
  simp only [hfixed, isTablePid, allRoles, List.any_cons, List.any_nil, Bool.or_eq_true, Bool.false_eq_true, or_false]
  tauto

end

/-- Settles O37: each role is the PID test that R187 gives it. -/
theorem tablePids : Obligations.TablePids := by
  intro s p
  simp only [mem_roles, isTablePid_iff, hasRole_pmt, hasRole_ait, hasRole_dsmcc]
  simp [fixedTablePids, hasRole]

/-! ## Counting, latching and routing (R184 to R190) -/

/-- A packet instruction counts the packet and latches its header; then it routes, except `TSPKT.RSV` (R188). -/
theorem exec_packetInstr (s : State) (afc : BitVec 2) (h : PktHead) (rest : Bytes) :
    exec (packetInstr afc h rest) s = .next ((s.takePacket afc h rest).push
      (if afc = 0#2 then [] else routeWork (s.takePacket afc h rest) (packetBytes s.cfg.syncByte afc h rest)
        (payloadOf (latch afc h rest) rest))) := by
  have hafc : afc = 0#2 ∨ afc = 1#2 ∨ afc = 2#2 ∨ afc = 3#2 := by decide +revert
  obtain rfl | rfl | rfl | rfl := hafc <;> rfl

/-- Of the instructions that route, `TSPKT.AF` is the one without a payload. -/
theorem getLsbD_zero_eq_false_iff {afc : BitVec 2} (h : afc ≠ 0#2) : afc.getLsbD 0 = false ↔ afc = 2#2 := by
  decide +revert

theorem Binding.is_eq_false_iff {b : Binding} {p : Pid} : b.is p = false ↔ ¬(b.valid = true ∧ b.pid = p) := by
  rw [← Bool.not_eq_true, Binding.is_iff]

theorem state_idle_of_ne_accumulating {c : Ctx} (h : c.state ≠ .accumulating) : c.state = .idle := by
  cases hs : c.state with
  | idle => rfl
  | accumulating => exact absurd hs h

/-- Settles O36: the routes of `routeWork_cases`. A packet that the reassembler takes for its PID's context or role, but
that has no payload, gives no work. -/
theorem packetRouting : Obligations.PacketRouting := by
  refine ⟨fun s h rest => exec_packetInstr s 0#2 h rest, fun s h rest i afc hi => ?_⟩
  obtain ⟨hne, rfl⟩ : afc ≠ 0#2 ∧ i = packetInstr afc h rest := by
    obtain ⟨rfl, rfl⟩ | ⟨rfl, rfl⟩ | ⟨rfl, rfl⟩ := hi <;> exact ⟨by decide, rfl⟩
  refine ⟨_, exec_packetInstr s afc h rest, ?_⟩
  rw [if_neg hne]
  obtain ⟨hpcr, hw⟩ | ⟨hpcr, hebu, hw⟩ | ⟨hpcr, hebu, hpl, hrole, hw⟩ | ⟨hpcr, hebu, hno, hw⟩ :=
    routeWork_cases (s.takePacket afc h rest) (packetBytes s.cfg.syncByte afc h rest)
      (payloadOf (latch afc h rest) rest)
  case inl =>
    obtain ⟨hvalid, hpid⟩ := Binding.is_iff.1 hpcr
    exact .inl ⟨hvalid, hpid, hw⟩
  case inr.inl =>
    obtain ⟨hvalid, hpid⟩ := Binding.is_iff.1 hebu
    exact .inr (.inl ⟨Binding.is_eq_false_iff.1 hpcr, hvalid, hpid, hw⟩)
  all_goals
    replace hpcr := Binding.is_eq_false_iff.1 hpcr
    replace hebu := Binding.is_eq_false_iff.1 hebu
    refine .inr (.inr ?_)
  case inr.inr.inl =>
    have hafc : afc ≠ 2#2 := mt (getLsbD_zero_eq_false_iff hne).2 (ne_true_of_eq_false · hpl)
    exact .inl ⟨hpcr, hebu, hrole, hw.trans (if_neg hafc).symm⟩
  case inr.inr.inr =>
    by_cases hrole : (s.ctxOf h.pid).state = .accumulating ∨ isTablePid s h.pid = true
    · have hpl : afc.getLsbD 0 = false :=
        hno.resolve_right fun ⟨hctx, htable⟩ => hrole.elim hctx (ne_true_of_eq_false htable)
      have hafc : afc = 2#2 := (getLsbD_zero_eq_false_iff hne).1 hpl
      exact .inl ⟨hpcr, hebu, hrole, hw.trans (if_pos hafc).symm⟩
    · rw [not_or, Bool.not_eq_true] at hrole
      obtain ⟨hctx, htable⟩ := hrole
      exact .inr ⟨hpcr, hebu, state_idle_of_ne_accumulating hctx, htable, hw⟩

end Sys2Proof.Machine
end

section
/-! The framing loop of 41_packet_deframe_route.md R181: its turns where no packet stands, and a whole batch of one
packet that no unit takes (R186). -/

namespace Sys2Proof.Machine

/-! ## A turn where no packet stands -/

theorem todo_reframe {s : State} (hw : s.work = []) (hn : s.packetHere = none) : s.todo = .go s.reframe := by
  simp [State.todo, hw, hn]

theorem step_reframe {s : State} (hp : s.phase = .inBatch) (ha : s.takeAction = none) (hw : s.work = [])
    (hn : s.packetHere = none) : step s = .next s.ticked.reframe :=
  step_go hp ha (todo_reframe (s := s.ticked) hw hn)

theorem byteAt_eq_iff {l : Bytes} {o : Nat} {b : Byte} (h : o < l.length) : byteAt l o = b ↔ l[o]? = some b := by
  simp [byteAt, h]

theorem byteAt_drop (l : Bytes) (n : Nat) : byteAt (l.drop n) 0 = byteAt l n := by simp [byteAt]

section
variable {s : State}

theorem packetHere_of_end (h : s.stream.length ≤ s.pc) : s.packetHere = none :=
  (packetHere_eq_none s).2 (.inl (by rw [packetLength]; omega))

theorem reframe_end (h : s.stream.length ≤ s.pc) : s.reframe = s.endBatch := by rw [State.reframe, if_pos h]

theorem reframe_lostSync (h : s.pc < s.stream.length) (hb : byteAt s.stream s.pc ≠ s.cfg.syncByte) :
    s.reframe = { s.raise .framingSync with pc := s.nextSync } := by
  rw [State.reframe, if_neg (by omega), if_pos hb]

theorem reframe_truncated (h : s.pc < s.stream.length) (hb : byteAt s.stream s.pc = s.cfg.syncByte) :
    s.reframe = if s.cfg.xbuf then { s with carry := s.stream.drop s.pc, pc := s.stream.length }
      else { s.raise .framingTrunc with pc := s.stream.length } := by
  rw [State.reframe, if_neg (by omega), if_neg (not_not.2 hb)]

/-! The next sync position (R373). -/

theorem lt_nextSync (s : State) : s.pc < s.nextSync := by
  rw [State.nextSync]
  omega

theorem nextSync_le (h : s.pc < s.stream.length) : s.nextSync ≤ s.stream.length := by
  have hle := (s.stream.drop (s.pc + 1)).findIdx_le_length (p := (· == s.cfg.syncByte))
  rw [List.length_drop] at hle
  rw [State.nextSync]
  omega

/-- No byte between the cursor and the next sync position is a sync byte. -/
theorem not_sync_of_lt_nextSync {k : Nat} (hk : s.pc < k) (hlt : k < s.nextSync) :
    s.stream[k]? ≠ some s.cfg.syncByte := by
  obtain ⟨i, rfl⟩ := Nat.exists_eq_add_of_le hk
  have hi : i < (s.stream.drop (s.pc + 1)).findIdx (· == s.cfg.syncByte) := by
    rw [State.nextSync] at hlt
    omega
  rw [← List.getElem?_drop, List.getElem?_eq_getElem (hi.trans_le List.findIdx_le_length), ne_eq, Option.some_inj]
  simpa using List.not_of_lt_findIdx hi

theorem sync_at_nextSync (h : s.nextSync < s.stream.length) : s.stream[s.nextSync]? = some s.cfg.syncByte := by
  have hi : (s.stream.drop (s.pc + 1)).findIdx (· == s.cfg.syncByte) < (s.stream.drop (s.pc + 1)).length := by
    rw [State.nextSync] at h
    rw [List.length_drop]
    omega
  rw [State.nextSync, ← List.getElem?_drop, List.getElem?_eq_getElem hi, Option.some_inj]
  simpa using List.findIdx_getElem (w := hi)

end

/-- Settles O9: no packet stands at a byte that is no sync byte, or where fewer than 188 bytes are left; then the turns
of `reframe`. -/
theorem framingTurns : Obligations.FramingTurns := by
  refine ⟨fun s hp ha hw hpc hsync => ?lostSync, fun s hp ha hw hpc hsync hshort => ?truncated,
    fun s hp ha hw hend => ?finished⟩
  case lostSync =>
    have hb : byteAt s.stream s.pc ≠ s.cfg.syncByte := mt (byteAt_eq_iff hpc).1 hsync
    have hnone : s.packetHere = none := (packetHere_eq_none s).2 (.inr (by rwa [byteAt_drop]))
    refine ⟨s.nextSync, lt_nextSync s, nextSync_le hpc, fun k => not_sync_of_lt_nextSync, sync_at_nextSync, ?_⟩
    rw [step_reframe hp ha hw hnone, reframe_lostSync (s := s.ticked) hpc hb]
    rfl
  case truncated =>
    have hb : byteAt s.stream s.pc = s.cfg.syncByte := (byteAt_eq_iff hpc).2 hsync
    have hnone : s.packetHere = none := (packetHere_eq_none s).2 (.inl hshort)
    rw [step_reframe hp ha hw hnone, reframe_truncated (s := s.ticked) hpc hb]
    rfl
  case finished =>
    rw [step_reframe hp ha hw (packetHere_of_end hend), reframe_end (s := s.ticked) hend]
    rfl

/-! ## A batch of one packet -/

/-- The state in which the engine begins a batch of the bytes `p`, with nothing more to come from the host. -/
def State.inBatchOf (s : State) (p : Bytes) : State :=
  { s with phase := .inBatch, batchErr := false, stream := p, carry := [], pc := 0, work := [], host := [] }

theorem step_batch {s : State} {p : Bytes} (hready : s.phase = .ready) (hcarry : s.carry = [])
    (hhost : s.host = [⟨.batch p, none⟩]) : step s = .next (s.inBatchOf p) := by
  rw [step_host hhost (.inl (by simp [hready]))]
  exact (processStarts { s with host := [] } p hready).trans (by simp [hcarry, State.inBatchOf])

theorem runSteps_succ {s t : State} (n : Nat) (h : step s = .next t) : runSteps (n + 1) s = runSteps n t := by
  rw [runSteps, h]

/-- A packet that no unit takes is discarded (R186). -/
theorem routeWork_discarded {s : State} (packet payload : Bytes) (hpcr : s.bind.pcr.is s.hdr.pid = false)
    (hebu : s.bind.ebu.is s.hdr.pid = false) (hctx : (s.ctxOf s.hdr.pid).state = .idle)
    (htable : isTablePid s s.hdr.pid = false) : routeWork s packet payload = [] := by
  simp [routeWork, hpcr, hebu, hctx, htable]

/-- Its instruction counts it and latches its header, whatever its kind. -/
theorem exec_packetInstr_discarded {s : State} (afc : BitVec 2) {h : PktHead} (rest : Bytes)
    (hpcr : s.bind.pcr.is h.pid = false) (hebu : s.bind.ebu.is h.pid = false) (hctx : (s.ctxOf h.pid).state = .idle)
    (htable : isTablePid s h.pid = false) : exec (packetInstr afc h rest) s = .next (s.takePacket afc h rest) := by
  rw [exec_packetInstr, routeWork_discarded (s := s.takePacket afc h rest) _ _ hpcr hebu hctx htable, ite_self]
  rfl

section
variable {s : State} (hp : s.phase = .inBatch) (hh : s.host = [])
include hp hh

/-- With nothing to come from the host a step in a batch is the engine's, and no item of the host waits. -/
theorem step_engine_alone : step s = engineStep s := by
  have hticked : s.ticked = s := by rw [State.ticked, hh, tickHost, ← hh]
  rw [step_engine hp (by rw [State.takeAction, hh]), hticked]

theorem step_discarded {afc : BitVec 2} {h : PktHead} {rest : Bytes} (hw : s.work = [])
    (hd : decodePacket s.cfg.syncByte ((s.stream.drop s.pc).take packetLength) = .ok (packetInstr afc h rest))
    (hpcr : s.bind.pcr.is h.pid = false) (hebu : s.bind.ebu.is h.pid = false) (hctx : (s.ctxOf h.pid).state = .idle)
    (htable : isTablePid s h.pid = false) :
    step s = .next (State.takePacket { s with work := [.endPacket] } afc h rest) := by
  rw [step_engine_alone hp hh, engineStep, todo_packet hw hd]
  exact exec_packetInstr_discarded afc rest hpcr hebu hctx htable

theorem step_endPacket {rest : List Work} (hw : s.work = .endPacket :: rest) :
    step s = .next { s with work := rest, pc := s.pc + packetLength } := by
  rw [step_engine_alone hp hh, engineStep, todo_endPacket hw]

theorem step_batch_end (hw : s.work = []) (hend : s.stream.length ≤ s.pc) : step s = .next s.endBatch := by
  rw [step_engine_alone hp hh, engineStep, todo_reframe hw (packetHere_of_end hend), reframe_end hend]

end

/-- Settles O10: the batch is taken, the packet runs, its end moves the cursor past it, and there the batch ends. -/
theorem unroutedPacketBatch : Obligations.UnroutedPacketBatch := by
  intro s p i hready hcarry hhost hi hpcr hebu hctx htable
  obtain ⟨afc, h, rest, hfits, rfl, rfl⟩ := decodePacket_eq_ok hi
  rw [u32_packetBytes, headOf_headWord] at hpcr hebu hctx htable
  set p := packetBytes s.cfg.syncByte afc h rest
  have hlen : p.length = packetLength := (Laws.packetBytes_fits s.cfg afc h rest hfits).1
  have hdecode : decodePacket s.cfg.syncByte ((p.drop 0).take packetLength) = .ok (packetInstr afc h rest) := by
    rw [List.drop_zero, List.take_of_length_le hlen.le, hi]
  have hbatch : step s = .next (s.inBatchOf p) := step_batch hready hcarry hhost
  have hpacket := step_discarded (s := s.inBatchOf p) rfl rfl rfl hdecode hpcr hebu hctx htable
  refine ⟨latch afc h rest, ?_⟩
  calc runSteps 4 s
    _ = runSteps 3 (s.inBatchOf p) := runSteps_succ 3 hbatch
    _ = runSteps 2 (State.takePacket { s.inBatchOf p with work := [.endPacket] } afc h rest) := runSteps_succ 2 hpacket
    _ = runSteps 1 _ := runSteps_succ 1 (step_endPacket rfl rfl rfl)
    _ = runSteps 0 _ := runSteps_succ 0 (step_batch_end rfl rfl rfl (by simp [State.inBatchOf, hlen]))
    _ = _ := by
      simp [runSteps, State.endBatch, State.takePacket, State.inBatchOf, State.batchOk, hready, hcarry]

end Sys2Proof.Machine
end

section
/-! Proofs of the family 42_section_reassembly_crc.md. First each micro-operation of the reassembler, one equation for
each of its cases: continuity (R211), the payload step (R212), one turn of the drain (R213, R214), the sections that are
dropped (R220, R221). -/

namespace Sys2Proof.Machine

/-! ## What a micro-operation writes -/

/-- An outcome that writes one context and pushes work changes `ctx` and `work` alone, and no other context. -/
theorem exists_next_setCtx_push {s : State} {o : Result State} {pid : Pid} {c : Ctx} {w : List Work}
    (hwf : Memory.wf s = true) (ho : o = .next ((s.setCtx pid c).push w)) :
    ∃ t, o = .next t ∧ t = { s with ctx := t.ctx, work := w ++ s.work } ∧ t.ctxOf pid = c ∧
      ∀ q, q ≠ pid → t.ctxOf q = s.ctxOf q :=
  ⟨_, ho, rfl, ctxOf_setCtx_same s pid c hwf, fun q hq => ctxOf_setCtx_other s pid q c hq hwf⟩

theorem Ctx.filled_of_accumulating {c : Ctx} (h : c.state = .accumulating) (b : Bytes) :
    c.filled b = { c with buf := b } := by
  rw [Ctx.filled, ← h]

theorem Ctx.idled_of_empty {c : Ctx} (h : c.buf = []) : c.idled = { c with state := .idle } := by
  rw [Ctx.idled, ← h]

/-! ## Continuity (R211) -/

theorem Ctx.duplicate_iff {c : Ctx} {cc : BitVec 4} : c.duplicate cc = true ↔ c.ccValid = true ∧ cc = c.lastCc := by
  simp [Ctx.duplicate]

/-- The successor of a counter, modulo 16. -/
theorem eq_add_one_iff {a b : BitVec 4} : a = b + 1 ↔ a.toNat = (b.toNat + 1) % 16 := by
  rw [← BitVec.toNat_inj, BitVec.toNat_add]
  rfl

theorem Ctx.jump_iff {c : Ctx} {cc : BitVec 4} :
    c.jump cc = true ↔ c.ccValid = true ∧ cc ≠ c.lastCc ∧ cc.toNat ≠ (c.lastCc.toNat + 1) % 16 := by
  simp [Ctx.jump, ← eq_add_one_iff, and_assoc]

section
variable {s : State} {pid : Pid} (payload : Bytes)

theorem exec_secCc_duplicate (h : (s.ctxOf pid).duplicate s.hdr.cc = true) :
    exec (.secCc pid payload) s = .next s := by
  simp [exec, execSecCc, h]

theorem exec_secCc_jump (h : (s.ctxOf pid).jump s.hdr.cc = true) :
    exec (.secCc pid payload) s = .next (((s.raise .continuity).setCtx pid ((s.ctxOf pid).idled.tracked s.hdr.cc)).push
      [.unit (.payload s.hdr.pusi pid payload)]) := by
  have hdup : ¬ (s.ctxOf pid).duplicate s.hdr.cc = true := fun hd =>
    (Ctx.jump_iff.1 h).2.1 (Ctx.duplicate_iff.1 hd).2
  simp only [exec, execSecCc, if_neg hdup, if_pos h]

theorem exec_secCc_tracked (hdup : ¬ (s.ctxOf pid).duplicate s.hdr.cc = true)
    (hjump : ¬ (s.ctxOf pid).jump s.hdr.cc = true) :
    exec (.secCc pid payload) s = .next ((s.setCtx pid ((s.ctxOf pid).tracked s.hdr.cc)).push
      [.unit (.payload s.hdr.pusi pid payload)]) := by
  simp only [exec, execSecCc, if_neg hdup, if_neg hjump]

end

/-- Settles O38: a first packet, or a counter that follows the last one, is neither a duplicate nor a jump. -/
theorem continuityCheck : Obligations.ContinuityCheck := by
  refine fun s pid b hwf => ⟨fun hvalid heq => ?duplicate, fun h => ?tracked, fun hvalid hne hsucc => ?jump⟩
  case duplicate => exact exec_secCc_duplicate b (Ctx.duplicate_iff.2 ⟨hvalid, heq⟩)
  case tracked =>
    have hdup : ¬ (s.ctxOf pid).duplicate s.hdr.cc = true := by
      rw [Ctx.duplicate_iff]
      rintro ⟨hvalid, heq⟩
      have hsucc := h.resolve_left (by simp [hvalid])
      rw [heq] at hsucc
      omega
    have hjump : ¬ (s.ctxOf pid).jump s.hdr.cc = true := by
      rw [Ctx.jump_iff]
      rintro ⟨hvalid, -, hne⟩
      exact hne (h.resolve_left (by simp [hvalid]))
    exact exists_next_setCtx_push hwf (exec_secCc_tracked b hdup hjump)
  case jump =>
    have hexec := exec_secCc_jump b (Ctx.jump_iff.2 ⟨hvalid, hne, hsucc⟩)
    exact exists_next_setCtx_push (s := s.raise .continuity) hwf hexec

/-! ## The payload step (R212, R219) -/

theorem restart_nil (s : State) (pid : Pid) : s.restart pid [] = s.setCtx pid (s.ctxOf pid).idled := if_pos rfl

theorem restart_of_ne_nil (s : State) (pid : Pid) {new : Bytes} (h : new ≠ []) :
    s.restart pid new = (s.setCtx pid ((s.ctxOf pid).filled new)).push [.unit (.drain pid)] := if_neg h

section
variable {s : State} {pid : Pid}

theorem exec_secStart_accumulating (ptr : Byte) (rest : Bytes) (h : (s.ctxOf pid).state = .accumulating) :
    exec (.secStart pid (ptr :: rest)) s =
      .next ((s.setCtx pid ((s.ctxOf pid).filled ((s.ctxOf pid).buf ++ rest.take ptr.toNat))).push
        [.unit (.drain pid), .restart pid (rest.drop ptr.toNat)]) := by
  simp only [exec, execSecStart, splitAtPointer, if_pos h]

theorem exec_secStart_idle (ptr : Byte) (rest : Bytes) (h : (s.ctxOf pid).state = .idle) :
    exec (.secStart pid (ptr :: rest)) s = .next (s.restart pid (rest.drop ptr.toNat)) := by
  simp [exec, execSecStart, splitAtPointer, h]

theorem exec_secAppend_accumulating (payload : Bytes) (h : (s.ctxOf pid).state = .accumulating) :
    exec (.secAppend pid payload) s =
      .next ((s.setCtx pid ((s.ctxOf pid).filled ((s.ctxOf pid).buf ++ payload))).push [.unit (.drain pid)]) := by
  simp only [exec, execSecAppend, if_pos h]

theorem exec_secAppend_idle (payload : Bytes) (h : (s.ctxOf pid).state = .idle) :
    exec (.secAppend pid payload) s = .next s := by
  simp [exec, execSecAppend, h]

end

/-- Settles O39: with a section in flight the tail is appended and the new section waits in `restart`; without one
`restart` runs at once, and the pointer decides whether it has bytes. -/
theorem payloadStart : Obligations.PayloadStart := by
  refine fun s pid ptr rest hwf => ⟨rfl, fun hacc => ?inFlight, fun hidle hlt => ?fresh, fun hidle hle => ?nothing⟩
  case inFlight =>
    rw [← Ctx.filled_of_accumulating hacc]
    exact exists_next_setCtx_push hwf (exec_secStart_accumulating ptr rest hacc)
  case fresh =>
    have hnew : rest.drop ptr.toNat ≠ [] := by simpa using hlt
    have hexec := exec_secStart_idle ptr rest hidle
    rw [restart_of_ne_nil s pid hnew] at hexec
    exact exists_next_setCtx_push hwf hexec
  case nothing =>
    have hexec := exec_secStart_idle ptr rest hidle
    rw [List.drop_eq_nil_of_le hle, restart_nil] at hexec
    exact exists_next_setCtx_push (w := []) hwf hexec

/-- Settles O40: with a section in flight the payload goes behind what its buffer holds. -/
theorem payloadAppend : Obligations.PayloadAppend := by
  refine fun s pid b hwf => ⟨exec_secAppend_idle b, fun hacc => ?_⟩
  obtain ⟨t, hexec, ht, hsame, hother⟩ := exists_next_setCtx_push hwf (exec_secAppend_accumulating b hacc)
  rw [Ctx.filled_of_accumulating hacc] at hsame
  exact ⟨t, hexec, ht, fun k => by rw [readByte, hsame], hsame, hother⟩

/-! ## One turn of the drain (R213, R214) -/

section
variable {s : State} {pid : Pid}

theorem exec_secDrain_empty (h : (s.ctxOf pid).buf = []) :
    exec (.secDrain pid) s = .next (s.setCtx pid (s.ctxOf pid).idled) := by
  simp only [exec, execSecDrain, if_pos h]

theorem exec_secDrain_padding (hne : (s.ctxOf pid).buf ≠ []) (hpad : byteAt (s.ctxOf pid).buf 0 = 0xFF#8) :
    exec (.secDrain pid) s = .next (s.push [.unit (.table pid [] (s.ctxOf pid).buf)]) := by
  simp only [exec, execSecDrain, if_neg hne, if_pos hpad]

theorem exec_secDrain_incomplete (h : incomplete (s.ctxOf pid).buf) : exec (.secDrain pid) s = .next s := by
  obtain ⟨hne, hpad, hshort⟩ := h
  simp only [exec, execSecDrain, if_neg hne, if_neg hpad]
  obtain hlen | hlen := hshort
  · rw [if_pos hlen]
  · rw [if_pos hlen, ite_self]

/-- A non-empty buffer without padding in front and without an incomplete section has a whole section in front. -/
theorem exec_secDrain_section (hne : (s.ctxOf pid).buf ≠ []) (hpad : byteAt (s.ctxOf pid).buf 0 ≠ 0xFF#8)
    (hwhole : ¬ incomplete (s.ctxOf pid).buf) :
    exec (.secDrain pid) s = .next
      ((s.setCtx pid { s.ctxOf pid with buf := (s.ctxOf pid).buf.drop (sectionTotal (s.ctxOf pid).buf) }).push
        [.unit (.extracted pid ((s.ctxOf pid).buf.take (sectionTotal (s.ctxOf pid).buf))), .unit (.drain pid)]) := by
  obtain ⟨hlen, htotal⟩ := not_or.1 fun h => hwhole ⟨hne, hpad, h⟩
  simp only [exec, execSecDrain, if_neg hne, if_neg hpad, if_neg hlen, if_neg htotal]

end

theorem byteAt_append_left {a : Bytes} (b : Bytes) {n : Nat} (h : n < a.length) : byteAt (a ++ b) n = byteAt a n :=
  List.getD_append _ _ _ _ h

/-- `section_length` lies in bytes 1 and 2 of the section, whatever follows it. -/
theorem sectionTotal_append {sec : Bytes} (r : Bytes) (h : 3 ≤ sec.length) :
    sectionTotal (sec ++ r) = sectionTotal sec := by
  rw [sectionTotal, sectionTotal, sectionLength, sectionLength, u16, u16, byteAt_append_left r (by omega),
    byteAt_append_left r (by omega)]

/-- Settles O41: the four cases of the turn; the length of a section in front of a buffer is read in the section. -/
theorem drainTurn : Obligations.DrainTurn := by
  rintro s pid _ hwf rfl
  refine ⟨fun hempty => ?empty, exec_secDrain_padding, fun hne hpad hshort => ?waits,
    fun sec r hb hlen htotal hpad => ?whole⟩
  case empty =>
    rw [← Ctx.idled_of_empty hempty]
    exact exists_next_setCtx_push (w := []) hwf (exec_secDrain_empty hempty)
  case waits => exact exec_secDrain_incomplete ⟨hne, hpad, hshort⟩
  case whole =>
    have htotal : sectionTotal (s.ctxOf pid).buf = sec.length := by
      rw [hb, sectionTotal_append r hlen, htotal]
      rfl
    have hpad : byteAt (s.ctxOf pid).buf 0 ≠ 0xFF#8 := by rwa [hb, byteAt_append_left r (by omega)]
    have hsize : (s.ctxOf pid).buf.length = sec.length + r.length := by rw [hb, List.length_append]
    have hne : (s.ctxOf pid).buf ≠ [] := List.ne_nil_of_length_pos (by omega)
    have hwhole : ¬ incomplete (s.ctxOf pid).buf := by
      rintro ⟨-, -, hshort⟩
      omega
    have hexec := exec_secDrain_section hne hpad hwhole
    rw [htotal, hb, List.take_left, List.drop_left] at hexec
    exact exists_next_setCtx_push hwf hexec

/-! ## Sections that are dropped (R220, R221) -/

/-- Settles O42: `SEC.STUFF` writes its context alone, the other two write nothing. -/
theorem droppedSections : Obligations.DroppedSections := fun _ _ _ =>
  ⟨fun hwf => exists_next_setCtx_push (w := []) hwf rfl, rfl, rfl⟩

end Sys2Proof.Machine
end

section
/-! The CRC of 42_section_reassembly_crc.md R215 and the check of R216. Every step of the division is injective when the
polynomial is odd, so two registers that differ stay different; a byte equal to the top byte of the register is taken
out of it by 8 shifts without the polynomial. -/

namespace Sys2Proof.Machine

/-! ## An odd polynomial loses nothing -/

section
variable {poly : BitVec 32}

theorem getLsbD_zero_crcShift (hodd : poly.getLsbD 0 = true) (c : BitVec 32) :
    (crcShift poly c).getLsbD 0 = c.getLsbD 31 := by
  unfold crcShift
  split
  next h => rw [BitVec.getLsbD_xor, BitVec.getLsbD_shiftLeft, hodd, h]; rfl
  next h => rw [BitVec.getLsbD_shiftLeft, Bool.eq_false_iff.2 h]; rfl

/-- The lowest bit of the result tells whether the polynomial was added, and the rest is the register moved up. -/
theorem crcShift_injective (hodd : poly.getLsbD 0 = true) : Function.Injective (crcShift poly) := by
  intro c d h
  have htop : c.getLsbD 31 = d.getLsbD 31 := by
    rw [← getLsbD_zero_crcShift hodd, h, getLsbD_zero_crcShift hodd]
  have hshift : c <<< 1 = d <<< 1 := by
    simp only [crcShift, htop] at h
    split at h
    · exact (BitVec.xor_left_inj _).1 h
    · exact h
  refine BitVec.eq_of_getLsbD_eq fun i hi => ?_
  obtain rfl | hi31 : i = 31 ∨ i < 31 := by omega
  · exact htop
  · have hbit := congrArg (·.getLsbD (i + 1)) hshift
    simpa [-BitVec.getLsbD_eq_getElem, show i + 1 < 32 by omega] using hbit

theorem crcByte_injective (hodd : poly.getLsbD 0 = true) (b : Byte) : Function.Injective (crcByte poly · b) :=
  fun _ _ h => (BitVec.xor_left_inj _).1 ((crcShift_injective hodd).iterate 8 h)

/-- From one register, two bytes that differ give two registers that differ. -/
theorem crcByte_byte_injective (hodd : poly.getLsbD 0 = true) (c : BitVec 32) :
    Function.Injective (crcByte poly c) := by
  intro x y h
  have hxor := (BitVec.xor_right_inj _).1 ((crcShift_injective hodd).iterate 8 h)
  refine BitVec.eq_of_getLsbD_eq fun i hi => ?_
  have hbit := congrArg (·.getLsbD (i + 24)) hxor
  simpa [show i + 24 < 32 by omega, show i < 32 by omega] using hbit

end

/-! ## The register over a byte sequence -/

/-- One byte of `crc32`, as the configuration lets it enter. -/
def crcNext (cfg : Config) (c : BitVec 32) (b : Byte) : BitVec 32 :=
  crcByte cfg.crcPoly c (if cfg.crcReflect then b.reverse else b)

theorem crcRegister_append (cfg : Config) (a b : Bytes) :
    crcRegister cfg (a ++ b) = b.foldl (crcNext cfg) (crcRegister cfg a) := List.foldl_append

theorem reverse_injective {n : Nat} : Function.Injective (BitVec.reverse : BitVec n → BitVec n) := 
  Function.LeftInverse.injective fun _ => BitVec.reverse_reverse_eq

/-- Output reflection and the final XOR lose nothing. -/
theorem crc32_inj {cfg : Config} {a b : Bytes} : crc32 cfg a = crc32 cfg b ↔ crcRegister cfg a = crcRegister cfg b := by
  rw [crc32, crc32, BitVec.xor_left_inj]
  split
  · exact reverse_injective.eq_iff
  · rfl

section
variable {cfg : Config} (hodd : cfg.crcPoly.getLsbD 0 = true)
include hodd

/-- What follows two registers that differ leaves them different. -/
theorem foldl_crcNext_injective (l : Bytes) : Function.Injective (List.foldl (crcNext cfg) · l) := by
  induction l with
  | nil => exact fun _ _ h => h
  | cons b l ih => exact fun _ _ h => crcByte_injective hodd _ (ih h)

theorem crcNext_byte_injective (c : BitVec 32) : Function.Injective (crcNext cfg c) := by
  intro x y h
  have hin := crcByte_byte_injective hodd c h
  split at hin
  · exact reverse_injective hin
  · exact hin

end

/-- Settles O44: the byte that differs makes the registers differ, and the bytes after it keep them so. -/
theorem crcDetectsOneByte : Obligations.CrcDetectsOneByte := by
  intro cfg a c x y hodd hne h
  rw [crc32_inj, List.append_assoc, List.append_assoc, crcRegister_append, crcRegister_append] at h
  exact hne (crcNext_byte_injective hodd _ (foldl_crcNext_injective hodd c h))

/-! ## A sequence followed by its CRC -/

/-- Up to 8 shifts of a register whose top byte is 0 add no polynomial. -/
theorem iterate_crcShift_of_low (poly c : BitVec 32) (hlow : ∀ i, 24 ≤ i → c.getLsbD i = false) {n : Nat} (hn : n ≤ 8) :
    (crcShift poly)^[n] c = c <<< n := by
  induction n with
  | zero => simp
  | succ n ih =>
    have htop : (c <<< n).getLsbD 31 = false := by
      rw [BitVec.getLsbD_shiftLeft, hlow (31 - n) (by omega), Bool.and_false]
    rw [Function.iterate_succ_apply', ih (by omega), crcShift, htop, BitVec.shiftLeft_add]
    rfl

/-- A byte equal to the top byte of the register is divided out of it. -/
theorem crcByte_top (poly c : BitVec 32) : crcByte poly c (c.extractLsb' 24 8) = c <<< 8 := by
  have hlow (i : Nat) (hi : 24 ≤ i) :
      (c ^^^ ((c.extractLsb' 24 8).setWidth 32 <<< 24)).getLsbD i = false := by
    obtain h32 | h32 := Nat.lt_or_ge i 32
    · simp [h32, show ¬ i < 24 by omega, show i - 24 < 8 by omega, show 24 + (i - 24) = i by omega]
    · exact BitVec.getLsbD_of_ge _ _ h32
  rw [crcByte, iterate_crcShift_of_low poly _ hlow (le_refl 8), BitVec.shiftLeft_xor_distrib, ← BitVec.shiftLeft_add,
    BitVec.shiftLeft_eq_zero (n := 24 + 8) (le_refl 32), BitVec.xor_zero]

/-- Each byte of a register is its top byte once the bytes above it are shifted out. -/
theorem crcByte_shifted (poly v : BitVec 32) {n : Nat} (hn : n ≤ 24) :
    crcByte poly (v <<< n) (v.extractLsb' (24 - n) 8) = v <<< (n + 8) := by
  have hbyte : v.extractLsb' (24 - n) 8 = (v <<< n).extractLsb' 24 8 := by
    refine BitVec.eq_of_getLsbD_eq fun i hi => ?_
    simp [-BitVec.getLsbD_eq_getElem, hi, show 24 + i < 32 by omega, show ¬ 24 + i < n by omega,
      show 24 + i - n = 24 - n + i by omega]
  rw [hbyte, crcByte_top, BitVec.shiftLeft_add]

theorem crc32_default (s : Bytes) : crc32 {} s = crcRegister {} s := BitVec.xor_zero

theorem crc32_default_snoc (s : Bytes) (b : Byte) :
    crc32 {} (s ++ [b]) = crcByte 0x04C11DB7#32 (crc32 {} s) b := by
  rw [crc32_default, crc32_default, crcRegister_append]
  rfl

theorem be32_eq (v : BitVec 32) :
    be32 v = [v.extractLsb' 24 8, v.extractLsb' 16 8, v.extractLsb' 8 8, v.extractLsb' 0 8] := by
  simp (disch := decide) only [be32, be16, extractLsb'_extractLsb', List.cons_append, List.nil_append]

/-- The 4 bytes of the register divide all of it out. -/
theorem foldl_crcByte_be32 (poly v : BitVec 32) : (be32 v).foldl (crcByte poly) v = 0#32 := by
  rw [be32_eq]
  calc crcByte poly (crcByte poly (crcByte poly (crcByte poly v _) _) _) _
    _ = crcByte poly (crcByte poly (crcByte poly (v <<< 8) _) _) _ := by rw [crcByte_top]
    _ = crcByte poly (crcByte poly (v <<< 16) _) _ := by rw [crcByte_shifted poly v (n := 8) (by decide)]
    _ = crcByte poly (v <<< 24) _ := by rw [crcByte_shifted poly v (n := 16) (by decide)]
    _ = v <<< 32 := crcByte_shifted poly v (n := 24) (by decide)
    _ = 0#32 := BitVec.shiftLeft_eq_zero (le_refl 32)

/-- Settles O45: one byte more is one `crcByte` more, and the 4 bytes of the CRC divide the register out. -/
theorem crcOfCodeword : Obligations.CrcOfCodeword := by
  refine ⟨rfl, crc32_default_snoc, fun s => ?codeword, by decide +kernel, by decide +kernel, by decide +kernel⟩
  case codeword =>
    rw [crc32_default, crcRegister_append, ← crc32_default]
    exact foldl_crcByte_be32 _ _

/-! ## The check of a section (R216) -/

theorem u32_drop (l : Bytes) (n : Nat) : u32 (l.drop n) 0 = u32 l n := by
  simp [u32, u16, byteAt, Nat.add_assoc]

/-- The CRC trailer of a section is its last 4 bytes. -/
theorem crcValid_iff {cfg : Config} {sec : Bytes} (h : byteAt sec 0 ∉ cfg.crcExempt) : crcValid cfg sec = true ↔
    7 ≤ sec.length ∧ crc32 cfg (sec.take (sec.length - 4)) = u32 sec (sec.length - 4) := by
  simp [crcValid, h]

theorem crcValid_of_exempt {cfg : Config} {sec : Bytes} (h : byteAt sec 0 ∈ cfg.crcExempt) :
    crcValid cfg sec = true := by
  simp [crcValid, h]

/-- A section of at least 7 bytes that ends with the CRC of its other bytes is valid, exempt or not. -/
theorem crcValid_append_crc32 (cfg : Config) {body : Bytes} (h : 3 ≤ body.length) :
    crcValid cfg (body ++ be32 (crc32 cfg body)) = true := by
  have hlen : (body ++ be32 (crc32 cfg body)).length - 4 = body.length := by simp [be32, be16]
  by_cases hex : byteAt (body ++ be32 (crc32 cfg body)) 0 ∈ cfg.crcExempt
  · exact crcValid_of_exempt hex
  · have hread := u32_be32 (crc32 cfg body) []
    rw [List.append_nil] at hread
    rw [crcValid_iff hex, hlen, List.take_left, ← u32_drop, List.drop_left, hread]
    exact ⟨by omega, rfl⟩

theorem exec_secCrc_stuffing {s : State} {pid : Pid} {sec : Bytes} (h : byteAt sec 0 ∈ s.cfg.stuffingIds) :
    exec (.secCrc pid sec) s = .next s := by
  simp only [exec, execSecCrc, List.contains_iff_mem, if_pos h]

section
variable {s : State} {pid : Pid} {sec : Bytes} (hstuff : byteAt sec 0 ∉ s.cfg.stuffingIds)
include hstuff

theorem exec_secCrc_valid (h : crcValid s.cfg sec = true) :
    exec (.secCrc pid sec) s = .next (s.push [.unit (.validated pid sec)]) := by
  simp only [exec, execSecCrc, List.contains_iff_mem, if_neg hstuff, if_pos h]

theorem exec_secCrc_invalid (h : ¬ crcValid s.cfg sec = true) :
    exec (.secCrc pid sec) s = .next (s.raise .integrity) := by
  simp only [exec, execSecCrc, List.contains_iff_mem, if_neg hstuff, if_neg h]

end

/-- Settles O43: `crcValid` decides, and it holds for an exempt section and for one that ends with its CRC. -/
theorem crcCheck : Obligations.CrcCheck := by
  refine fun s pid sec hstuff => ⟨fun hex => ?exempt, fun body hsec hlen => ?valid, fun hex hbad => ?invalid⟩
  case exempt => exact exec_secCrc_valid hstuff (crcValid_of_exempt hex)
  case valid => exact exec_secCrc_valid hstuff (hsec ▸ crcValid_append_crc32 s.cfg hlen)
  case invalid =>
    refine exec_secCrc_invalid hstuff fun hvalid => ?_
    obtain ⟨hlen, hcrc⟩ := (crcValid_iff hex).1 hvalid
    exact hbad.elim (by omega) fun hne => hne hcrc

end Sys2Proof.Machine
end

section
/-! `SEC.DISPATCH` of 42_section_reassembly_crc.md R221: the roles of a PID (41_packet_deframe_route.md R187) and the
`table_id`s that a role accepts (30_encoding.md R112, R113). -/

namespace Sys2Proof.Machine

theorem accepted_iff {cfg : Config} {r : Role} {tid : Byte} : accepted cfg r tid = true ↔ tid ∈ acceptedIds cfg r := by
  simp [accepted]

/-- The default ids of the EIT are an interval. -/
theorem mem_default_eit (t : Byte) : t ∈ ({} : TableIds).eit ↔ 0x4E ≤ t.toNat ∧ t.toNat ≤ 0x6F := by
  simp only [List.mem_map, List.mem_range]
  constructor
  · rintro ⟨n, hn, rfl⟩
    simp only [BitVec.toNat_ofNat]
    omega
  · rintro ⟨hlo, hhi⟩
    refine ⟨t.toNat - 0x4E, by omega, ?_⟩
    rw [Nat.add_sub_cancel' hlo, BitVec.ofNat_toNat, BitVec.setWidth_eq]

section
variable {s : State} {pid : Pid} {sec : Bytes} (hpad : byteAt sec 0 ≠ 0xFF#8)
  (hstuff : byteAt sec 0 ∉ s.cfg.stuffingIds) (hne : sec ≠ [])
include hpad hstuff hne

theorem decode_table_plain : decode s.cfg (.table pid (roles s pid) sec) =
    .ok ((((roles s pid).find? (accepted s.cfg · (byteAt sec 0))).map (tableInstr · sec)).getD (.secOther sec)) := by
  obtain ⟨tid, tail, rfl⟩ := List.exists_cons_of_ne_nil hne
  exact decodeTable_cons_plain pid _ hpad hstuff

/-- Of the roles that accept the section, the first one decodes it. -/
theorem decode_table_role (h : ∃ r, hasRole s pid r = true ∧ accepted s.cfg r (byteAt sec 0) = true) :
    ∃ r, hasRole s pid r = true ∧ accepted s.cfg r (byteAt sec 0) = true ∧
      decode s.cfg (.table pid (roles s pid) sec) = .ok (tableInstr r sec) := by
  obtain ⟨r, hrole, hacc⟩ := h
  have hsome : ((roles s pid).find? (accepted s.cfg · (byteAt sec 0))).isSome = true :=
    List.find?_isSome.2 ⟨r, mem_roles.2 hrole, hacc⟩
  obtain ⟨r', hfind⟩ := Option.isSome_iff_exists.1 hsome
  have hacc' : accepted s.cfg r' (byteAt sec 0) = true := List.find?_some (p := (accepted s.cfg · _)) hfind
  refine ⟨r', mem_roles.1 (List.mem_of_find?_eq_some hfind), hacc', ?_⟩
  rw [decode_table_plain hpad hstuff hne, hfind]
  rfl

theorem decode_table_other (h : ∀ r, hasRole s pid r = true → accepted s.cfg r (byteAt sec 0) = false) :
    decode s.cfg (.table pid (roles s pid) sec) = .ok (.secOther sec) := by
  have hfind : (roles s pid).find? (accepted s.cfg · (byteAt sec 0)) = none :=
    List.find?_eq_none.2 fun r hr => Bool.not_eq_true _ ▸ h r (mem_roles.1 hr)
  rw [decode_table_plain hpad hstuff hne, hfind]
  rfl

end

/-- Settles O46: the section is decoded with the roles its PID has; a role is a PID test and accepts the ids of the
map. -/
theorem dispatchByRole : Obligations.DispatchByRole := by
  refine ⟨fun s pid sec hpad hstuff hne => ?dispatch, fun s p => ?roles, fun cfg t => ?ids, fun t => ?defaults⟩
  case dispatch => exact ⟨rfl, decode_table_role hpad hstuff hne, decode_table_other hpad hstuff hne⟩
  case roles =>
    simp only [hasRole_pmt, hasRole_ait, hasRole_dsmcc]
    simp [hasRole]
  case ids => simp only [accepted_iff, acceptedIds, and_self]
  case defaults =>
    simp only [accepted_iff, acceptedIds]
    exact ⟨by simp, by simp, by simp, by simp, mem_default_eit t, by simp, by simp, by simp⟩

end Sys2Proof.Machine
end

section
/-! The invariant of the buffers (42_section_reassembly_crc.md R217, R218): what a settled context is, the bounds that
follow from the invariant, and one rule for an engine that has taken a unit off its work, from which the rule of each
operation follows. -/

namespace Sys2Proof.Machine

/-! ## Contexts -/

theorem Ctx.idled_settled (c : Ctx) : c.idled.settled := .inl ⟨rfl, rfl⟩

/-- The counter is not part of what R217 says. -/
theorem Ctx.tracked_settled {c : Ctx} (cc : BitVec 4) (h : c.settled) : (c.tracked cc).settled := h

/-- An incomplete section is shorter than the longest section, of `3 + 4095` bytes. -/
theorem incomplete.length_le {b : Bytes} (h : incomplete b) : b.length ≤ 4097 := by
  obtain ⟨-, -, hshort⟩ := h
  have htotal : sectionTotal b ≤ 4098 := by
    have hlt := (sectionLength b).isLt
    rw [sectionTotal]
    omega
  omega

theorem Ctx.settled.length_le {c : Ctx} (h : c.settled) : c.buf.length ≤ 4097 := by
  obtain ⟨-, hb⟩ | ⟨-, hb⟩ := h
  · simp [hb]
  · exact hb.length_le

/-- What `BufInv` says of the context of `p` beside the work `w`. -/
def Ctx.held (c : Ctx) (p : Pid) (w : List Work) : Prop :=
  c.settled ∨ (c.state = .accumulating ∧ c.buf.length ≤ bufCap ∧ drainPending p w)

theorem Ctx.held.length_le {c : Ctx} {p : Pid} {w : List Work} (h : c.held p w) : c.buf.length ≤ bufCap := by
  obtain hset | ⟨-, hle, -⟩ := h
  · exact hset.length_le.trans (by decide)
  · exact hle

theorem Ctx.held.accumulating {c : Ctx} {p : Pid} {w : List Work} (h : c.held p w) (hne : c.buf ≠ []) :
    c.state = .accumulating := by
  obtain (⟨-, hb⟩ | ⟨hacc, -⟩) | ⟨hacc, -⟩ := h
  · exact absurd hb hne
  · exact hacc
  · exact hacc

/-- A buffer filled to at most `BUF_CAP` is held while its drain is pending. -/
theorem Ctx.filled_held {p : Pid} {w : List Work} (c : Ctx) {b : Bytes} (hb : b.length ≤ bufCap)
    (hd : .unit (.drain p) ∈ w) : (c.filled b).held p w := .inr ⟨rfl, hb, .inl hd⟩

/-! ## Pending drains -/

/-- Handling this work leaves no buffer of `p` to drain: a turn of the drain, or the padding that a turn found. -/
def Work.drains (p : Pid) (w : Work) : Prop :=
  w = .unit (.drain p) ∨ ∃ rs b, w = .unit (.table p rs b) ∧ b ≠ [] ∧ byteAt b 0 = 0xFF#8

theorem drainPending_cons {p : Pid} {w : Work} {rest : List Work} :
    drainPending p (w :: rest) ↔ w.drains p ∨ .unit (.drain p) ∈ rest := by
  simp only [drainPending, Work.drains, List.mem_cons, List.head?_cons, Option.some.injEq, eq_comm (b := w)]
  exact or_right_comm

theorem not_drains_of_code {c : Code} (hdrain : ∀ p, c ≠ .drain p) (htable : ∀ p rs b, c ≠ .table p rs b) (p : Pid) :
    ¬ (Work.unit c).drains p := by
  rintro (h | ⟨rs, b, h, -⟩)
  · exact hdrain p (Work.unit.inj h)
  · exact htable p rs b (Work.unit.inj h)

theorem not_drains_of_no_unit {w : Work} (h : ∀ c, w ≠ .unit c) (p : Pid) : ¬ w.drains p := by
  rintro (hw | ⟨rs, b, hw, -⟩) <;> exact h _ hw

/-- The drain of a context is the work of that context alone. -/
theorem eq_of_drain_drains {p q : Pid} (h : (Work.unit (.drain p)).drains q) : q = p := by
  obtain h | ⟨rs, b, h, -⟩ := h
  · cases h
    rfl
  · cases h

theorem of_table_drains {p q : Pid} {rs : List Role} {b : Bytes} (h : (Work.unit (.table p rs b)).drains q) :
    q = p ∧ b ≠ [] ∧ byteAt b 0 = 0xFF#8 := by
  obtain h | ⟨rs, b, h, hb⟩ := h
  · cases h
  · cases h
    exact ⟨rfl, hb⟩

/-! ## What the invariant says of a buffer (R217, R218) -/

theorem BufInv.settled_of_no_drain {s : State} (h : BufInv s) {p : Pid} (hp : ¬ drainPending p s.work) :
    (s.ctxOf p).settled :=
  (h.buffers p).resolve_right fun ⟨_, _, hd⟩ => hp hd

theorem not_drainPending_nil (p : Pid) : ¬ drainPending p [] := by simp [drainPending]

theorem not_drainPending_endPacket (p : Pid) : ¬ drainPending p [.endPacket] := by simp [drainPending]

/-- Settles O16: a held buffer is within `BUF_CAP`, and between packets no drain is pending. -/
theorem bufferBound : Obligations.BufferBound := by
  refine fun s h => ⟨fun p => Ctx.held.length_le (h.buffers p), fun hw p => ?_⟩
  have hdrain : ¬ drainPending p s.work := by
    obtain hw | hw := hw <;> rw [hw]
    · exact not_drainPending_nil p
    · exact not_drainPending_endPacket p
  obtain hidle | ⟨hacc, hne, hpad, hshort⟩ := h.settled_of_no_drain hdrain
  · exact .inl hidle
  · exact .inr ⟨hacc, List.length_pos_of_ne_nil hne, hpad, hshort⟩

/-! ## What leaves the buffers alone -/

/-- The contexts and the continuation are the same, and `READY` is not entered. -/
structure SameBuffers (s t : State) : Prop where
  ctx : t.ctx = s.ctx
  work : t.work = s.work
  phase : t.phase = .ready → s.phase = .ready

theorem SameBuffers.refl (s : State) : SameBuffers s s := ⟨rfl, rfl, id⟩

theorem SameBuffers.notify {s t : State} {u : UnitId} (h : SameBuffers s t) : SameBuffers s (t.notify u) where
  ctx := by rw [State.notify_ctx, h.ctx]
  work := by rw [State.notify_work, h.work]
  phase hr := by
    obtain ⟨-, he⟩ | ⟨-, he⟩ := notify_cases t u <;> rw [he] at hr
    · cases hr
    · exact h.phase hr

theorem SameBuffers.acknowledge (s : State) : SameBuffers s s.acknowledge := by
  obtain ⟨k, -, -, he⟩ | ⟨-, he⟩ := acknowledge_cases s <;> rw [he] <;> exact ⟨rfl, rfl, nofun⟩

theorem BufInv.congr {s t : State} (h : BufInv s) (hst : SameBuffers s t) : BufInv t where
  buffers p := by
    rw [State.ctxOf, hst.ctx, hst.work]
    exact h.buffers p
  fits := hst.work ▸ h.fits
  tail := hst.work ▸ h.tail
  head w hw hc p := by
    rw [State.ctxOf, hst.ctx]
    exact h.head w (hst.work ▸ hw) hc p
  ready hr := hst.work ▸ h.ready (hst.phase hr)

/-! ## With every buffer settled -/

/-- Where every buffer is settled, the invariant is one of the work alone. -/
theorem BufInv.of_settled {s : State} (hset : ∀ p, (s.ctxOf p).settled) (hfits : ∀ w ∈ s.work, w.fits)
    (htail : ∀ w ∈ s.work.tail, w.carriesPayload = false) (hready : s.phase = .ready → s.work = []) : BufInv s where
  buffers p := .inl (hset p)
  fits := hfits
  tail := htail
  head _ _ _ := hset
  ready := hready

/-- Work in front of work without payload, at its head perhaps a payload. -/
theorem BufInv.of_front {s : State} {front rest : List Work} (hset : ∀ p, (s.ctxOf p).settled)
    (hphase : s.phase ≠ .ready) (hwork : s.work = front ++ rest)
    (hrest : ∀ x ∈ rest, x.fits ∧ x.carriesPayload = false) (hfits : ∀ x ∈ front, x.fits)
    (htail : ∀ x ∈ front.tail, x.carriesPayload = false) : BufInv s := by
  refine .of_settled hset ?fits ?tail fun hr => absurd hr hphase
  case fits => exact hwork ▸ List.forall_mem_append.2 ⟨hfits, fun x hx => (hrest x hx).1⟩
  case tail =>
    rw [hwork]
    cases front with
    | nil => exact fun x hx => (hrest x (List.mem_of_mem_tail hx)).2
    | cons y l => exact List.forall_mem_append.2 ⟨htail, fun x hx => (hrest x hx).2⟩

theorem BufInv.of_no_work {s : State} (hset : ∀ p, (s.ctxOf p).settled) (hw : s.work = []) : BufInv s := by
  refine .of_settled hset ?_ ?_ fun _ => hw <;> rw [hw] <;> exact List.forall_mem_nil _

theorem BufInv.powerOn (s : State) : BufInv s.powerOn := .of_no_work (fun _ => .inl ⟨rfl, rfl⟩) rfl

theorem settled_setCtx {s : State} {pid : Pid} {c : Ctx} (hset : ∀ p, (s.ctxOf p).settled) (hwf : Memory.wf s = true)
    (hc : c.settled) (p : Pid) : ((s.setCtx pid c).ctxOf p).settled := by
  by_cases hp : p = pid
  · rw [hp, ctxOf_setCtx_same s pid c hwf]
    exact hc
  · rw [ctxOf_setCtx_of_ne s c hp]
    exact hset p

/-! ## A unit is taken off the work

The engine takes the head `w` off its work before it handles it. What then stands is a state `s` with
`BufInv (s.push [w])`. -/

section
variable {s t : State} {w : Work} (h : BufInv (s.push [w]))
include h

theorem BufInv.taken_phase : s.phase ≠ .ready := fun hr => List.cons_ne_nil _ _ (h.ready hr)

/-- Only the head of the work can carry a payload. -/
theorem BufInv.taken_rest : ∀ x ∈ s.work, x.fits ∧ x.carriesPayload = false :=
  fun x hx => ⟨h.fits x (List.mem_cons_of_mem _ hx), h.tail x hx⟩

/-- A payload is only handled when every buffer is settled. -/
theorem BufInv.taken_settled (hw : w.carriesPayload = true) (p : Pid) : (s.ctxOf p).settled := h.head w rfl hw p

/-- A buffer that `w` does not drain is still held. -/
theorem BufInv.taken_held {p : Pid} (hp : ¬ w.drains p) (front : List Work) : (s.ctxOf p).held p (front ++ s.work) := by
  obtain hset | ⟨hacc, hle, hd⟩ := h.buffers p
  · exact .inl hset
  · exact .inr ⟨hacc, hle, .inl (List.mem_append_right _ ((drainPending_cons.1 hd).resolve_left hp))⟩

/-- The rule of the engine: work without payload is put in front, and each context that is written or that `w` drains is
held again. -/
theorem BufInv.of_taken {front : List Work} (hphase : t.phase = s.phase) (hwork : t.work = front ++ s.work)
    (hctx : ∀ q, (t.ctxOf q = s.ctxOf q ∧ ¬ w.drains q) ∨ (t.ctxOf q).held q t.work)
    (hfront : ∀ x ∈ front, x.fits ∧ x.carriesPayload = false) : BufInv t := by
  have hall : ∀ x ∈ t.work, x.fits ∧ x.carriesPayload = false :=
    hwork ▸ List.forall_mem_append.2 ⟨hfront, h.taken_rest⟩
  refine ⟨fun q => ?buffers, fun x hx => (hall x hx).1, fun x hx => (hall x (List.mem_of_mem_tail hx)).2,
    fun x hx hc => ?head, fun hr => absurd (hphase ▸ hr) h.taken_phase⟩
  case buffers =>
    obtain ⟨hq, hd⟩ | hq := hctx q
    · rw [hq, hwork]
      exact h.taken_held hd front
    · exact hq
  case head =>
    obtain ⟨-, hplain⟩ := hall x (List.mem_of_mem_head? hx)
    exact absurd (hc.symm.trans hplain) (by decide)

/-- The rule for an operation on one context, the one that `w` may drain. -/
theorem BufInv.taken_at {pid : Pid} {front : List Work} (hphase : t.phase = s.phase) (hwork : t.work = front ++ s.work)
    (hother : ∀ q, q ≠ pid → t.ctxOf q = s.ctxOf q) (hd : ∀ q, w.drains q → q = pid)
    (hc : (t.ctxOf pid).held pid t.work) (hfront : ∀ x ∈ front, x.fits ∧ x.carriesPayload = false) : BufInv t := by
  refine h.of_taken hphase hwork (fun q => ?_) hfront
  by_cases hq : q = pid
  · exact .inr (hq ▸ hc)
  · exact .inl ⟨hother q hq, fun hdq => hq (hd q hdq)⟩

/-- Work without payload in the place of work that drains nothing. -/
theorem BufInv.taken_push {front : List Work} (hd : ∀ p, ¬ w.drains p)
    (hfront : ∀ x ∈ front, x.fits ∧ x.carriesPayload = false) : BufInv (s.push front) :=
  h.of_taken rfl rfl (fun q => .inl ⟨rfl, hd q⟩) hfront

/-- Work that drains nothing has no effect on the buffers. -/
theorem BufInv.taken (hd : ∀ p, ¬ w.drains p) : BufInv s := h.taken_push (front := []) hd (List.forall_mem_nil _)

/-- That context is written. -/
theorem BufInv.taken_setCtx {pid : Pid} {c : Ctx} {front : List Work} (hwf : Memory.wf s = true)
    (hd : ∀ p, w.drains p → p = pid) (hc : c.held pid (front ++ s.work))
    (hfront : ∀ x ∈ front, x.fits ∧ x.carriesPayload = false) : BufInv ((s.setCtx pid c).push front) :=
  h.taken_at rfl rfl (fun _ hq => ctxOf_setCtx_of_ne s c hq) hd ((ctxOf_setCtx_same s pid c hwf).symm ▸ hc) hfront

/-- It goes `IDLE`. -/
theorem BufInv.taken_idled {pid : Pid} (hwf : Memory.wf s = true) (hd : ∀ p, w.drains p → p = pid) :
    BufInv (s.setCtx pid (s.ctxOf pid).idled) :=
  h.taken_setCtx (front := []) hwf hd (.inl (Ctx.idled_settled _)) (List.forall_mem_nil _)

/-- The second half of SEC.START: a new section of one payload is drained next. -/
theorem BufInv.taken_restart {pid : Pid} {new : Bytes} (hwf : Memory.wf s = true) (hd : ∀ p, ¬ w.drains p)
    (hnew : new.length ≤ 184) : BufInv (s.restart pid new) := by
  have hd' (p : Pid) (hp : w.drains p) : p = pid := absurd hp (hd p)
  obtain ⟨-, he⟩ | ⟨-, he⟩ := restart_cases s pid new <;> rw [he]
  · exact h.taken_idled hwf hd'
  · have hcap : new.length ≤ bufCap := hnew.trans (by decide)
    exact h.taken_setCtx hwf hd' (Ctx.filled_held _ hcap (by simp)) (by simp [Work.fits, Work.carriesPayload])

end

end Sys2Proof.Machine
end

section
/-! Every step keeps the invariant of the buffers: the instructions that leave the buffers alone, then the
reassembler's, then the units by the instructions they decode to, and the step. -/

namespace Sys2Proof.Machine

/-! ## Instructions that leave the buffers alone -/

/-- The engine's instructions that write no context and push no work: the decoders of packets, sections and descriptors,
the EBU events, and the sections that are dropped. -/
def leavesBuffers : Instr → Bool
  | .tspktRsv .. | .tspktPl .. | .tspktAf .. | .tspktAfpl .. => false
  | .secCc .. | .secStart .. | .secAppend .. | .secDrain _ | .secCrc .. | .secDispatch .. | .secStuff _ => false
  | i => !hostInstr i

theorem leavesBuffers_tableInstr (r : Role) (sec : Bytes) : leavesBuffers (tableInstr r sec) = true := by
  cases r <;> rfl

theorem leavesBuffers_eventInstr (ev : EbuEvent) : leavesBuffers (eventInstr ev) = true := by
  cases ev <;> rfl

theorem leavesBuffers_descInstr (cfg : Config) (ns : Namespace) (tag : Byte) (body : Bytes) :
    leavesBuffers (descInstr cfg ns tag body) = true := by
  unfold descInstr
  split <;> rfl

theorem SameBuffers.ite {s t u : State} {c : Prop} [Decidable c] (ht : SameBuffers s t) (hu : SameBuffers s u) :
    SameBuffers s (if c then t else u) := by
  split
  · exact ht
  · exact hu

theorem SameBuffers.setPage (s : State) (k : EbuKey) (pg : EbuPage) : SameBuffers s (s.setPage k pg) := ⟨rfl, rfl, id⟩

theorem SameBuffers.processDownload (s : State) (e : DsmccEntry) : SameBuffers s (s.processDownload e) := by
  obtain ⟨-, he⟩ | ⟨-, -, he⟩ | ⟨-, -, he⟩ := processDownload_cases s e <;> rw [he]
  · exact .refl s
  · exact .notify ⟨rfl, rfl, id⟩
  · exact ⟨rfl, rfl, id⟩

theorem exec_sameBuffers {i : Instr} {s t : State} (hi : leavesBuffers i = true) (he : exec i s = .next t) :
    SameBuffers s t := by
  cases i with
  | secPat | secPmt | secNit | secSdt =>
    simp only [exec, execSecPat, execSecPmt, execSecNit, execSecSdt] at he
    split at he
    · exact eq_of_next he ▸ .refl s
    · exact eq_of_next he ▸ .ite (.refl s) (.notify ⟨rfl, rfl, id⟩)
  | secEit | secTdt | secAit =>
    simp only [exec, execSecEit, execSecTdt, execSecAit] at he
    split at he
    · exact eq_of_next he ▸ .refl s
    · exact eq_of_next he ▸ .notify ⟨rfl, rfl, id⟩
  | secDsmcc => exact eq_of_next he ▸ .ite (.refl s) (.processDownload s _)
  | pcrDecode => exact eq_of_next he ▸ .ite (.notify ⟨rfl, rfl, id⟩) (.refl s)
  | ebuHeader =>
    exact eq_of_next he ▸ .ite (.ite (.notify ⟨rfl, rfl, id⟩) (.setPage s _ _)) (.setPage s _ _)
  | ebuLine => exact eq_of_next he ▸ .ite (.setPage s _ _) (.refl s)
  | tspktRsv | tspktPl | tspktAf | tspktAfpl | secCc | secStart | secAppend | secDrain | secCrc | secDispatch
  | secStuff => cases hi
  | reset | setPidDsmcc | setPidAit | setPidPcr | setPidEbu | getErrors | getPackets | registerCb | unregisterCb
  | getField | getListLen | getDescListLenAll | getDescListLenForTag | getDescByIndex | getDescByTag | getDescField
  | dsmccIsComplete | dsmccDecode | process | ack => cases hi
  | _ => exact eq_of_next he ▸ ⟨rfl, rfl, id⟩

/-! ## The host's instructions -/

/-- A command, `PROCESS` or `ACK` leaves the buffers alone, or, in `READY`, clears them: no work is pending there. -/
theorem BufInv.of_exec_host {i : Instr} {s t : State} (h : BufInv s) (hi : hostInstr i = true)
    (he : exec i s = .next t) : BufInv t := by
  cases exec_effect he with
  | answer | boundDsmcc | boundAit | boundPcr | boundEbu | slot => exact h.congr ⟨rfl, rfl, id⟩
  | cleared hp => exact .of_no_work (fun _ => .inl ⟨rfl, rfl⟩) (h.ready hp)
  | batch bytes hp => exact h.congr ⟨rfl, (h.ready hp).symm, nofun⟩
  | acknowledged => exact h.congr (.acknowledge s)
  | pushed w hf | packet _ _ _ _ hf | descriptor _ hf => exact absurd (hi.symm.trans hf) (by decide)
  | context _ _ _ hp => exact absurd (hi.symm.trans (hostInstr_of_buffer hp)) (by decide)
  | page _ _ hp => cases i <;> cases hp <;> cases hi
  | _ => cases hi

/-! ## Packets (41_packet_deframe_route.md R184) -/

theorem routeWork_fits (s : State) (packet : Bytes) (hd : Hdr) (rest : Bytes) :
    ∀ x ∈ routeWork s packet (payloadOf hd rest), x.fits := by
  obtain ⟨-, he⟩ | ⟨-, -, he⟩ | ⟨-, -, -, -, he⟩ | ⟨-, -, -, he⟩ :=
    routeWork_cases s packet (payloadOf hd rest) <;> rw [he]
  · simp [Work.fits]
  · simp [Work.fits]
  · simpa [Work.fits] using payloadOf_length hd rest
  · exact List.forall_mem_nil _

/-- Only the first work of a routed packet can carry its payload. -/
theorem routeWork_tail (s : State) (packet payload : Bytes) :
    ∀ x ∈ (routeWork s packet payload).tail, x.carriesPayload = false := by
  obtain ⟨-, he⟩ | ⟨-, -, he⟩ | ⟨-, -, -, -, he⟩ | ⟨-, -, -, he⟩ := routeWork_cases s packet payload <;> rw [he]
  · exact List.forall_mem_nil _
  · intro x hx
    obtain ⟨e, -, rfl⟩ := List.mem_map.1 (List.mem_of_mem_tail hx)
    rfl
  · exact List.forall_mem_nil _
  · exact List.forall_mem_nil _

theorem BufInv.of_packetInstr {s t : State} {afc : BitVec 2} {hd : PktHead} {rest : Bytes}
    (hset : ∀ p, (s.ctxOf p).settled) (hphase : s.phase ≠ .ready)
    (hrest : ∀ x ∈ s.work, x.fits ∧ x.carriesPayload = false) (he : exec (packetInstr afc hd rest) s = .next t) :
    BufInv t := by
  rw [exec_packetInstr] at he
  obtain rfl := eq_of_next he
  refine .of_front hset hphase rfl hrest ?fits ?tail
  case fits =>
    split
    · exact List.forall_mem_nil _
    · exact routeWork_fits _ _ _ _
  case tail =>
    split
    · exact List.forall_mem_nil _
    · exact routeWork_tail _ _ _

/-! ## The reassembler -/

/-- An incomplete section with the tail of one payload is within `BUF_CAP` (R217). -/
theorem length_append_le_bufCap {c : Ctx} {b : Bytes} (hc : c.settled) (hb : b.length ≤ 184) :
    (c.buf ++ b).length ≤ bufCap := by
  have hbuf := hc.length_le
  rw [List.length_append, bufCap]
  omega

section
variable {s t : State} {pid : Pid} {pl : Bytes} (hwf : Memory.wf s = true)
include hwf

/-- The continuity check lets the payload through, or drops it. -/
theorem BufInv.of_secCc (h : BufInv (s.push [.unit (.payloadPacket pid pl)])) (he : exec (.secCc pid pl) s = .next t) :
    BufInv t := by
  have hset := h.taken_settled rfl
  have hfits : ∀ x ∈ [Work.unit (.payload s.hdr.pusi pid pl)], x.fits :=
    List.forall_mem_singleton.2 (h.fits (.unit (.payloadPacket pid pl)) (List.mem_cons_self ..))
  by_cases hdup : (s.ctxOf pid).duplicate s.hdr.cc = true
  · rw [exec_secCc_duplicate pl hdup] at he
    exact eq_of_next he ▸ h.taken (not_drains_of_code nofun nofun)
  by_cases hjump : (s.ctxOf pid).jump s.hdr.cc = true
  · have hctx := settled_setCtx (s := s.raise .continuity) (pid := pid) hset hwf
      (Ctx.tracked_settled s.hdr.cc (Ctx.idled_settled (s.ctxOf pid)))
    rw [exec_secCc_jump pl hjump] at he
    exact eq_of_next he ▸ .of_front hctx h.taken_phase rfl h.taken_rest hfits (List.forall_mem_nil _)
  · have hctx := settled_setCtx (pid := pid) hset hwf (Ctx.tracked_settled s.hdr.cc (hset pid))
    rw [exec_secCc_tracked pl hdup hjump] at he
    exact eq_of_next he ▸ .of_front hctx h.taken_phase rfl h.taken_rest hfits (List.forall_mem_nil _)

theorem BufInv.of_secStart (h : BufInv (s.push [.unit (.payload true pid pl)]))
    (he : exec (.secStart pid pl) s = .next t) : BufInv t := by
  have hd := not_drains_of_code (c := .payload true pid pl) nofun nofun
  have hpl : pl.length ≤ 184 := h.fits _ (List.mem_cons_self ..)
  cases pl with
  | nil => exact eq_of_next he ▸ h.taken hd
  | cons ptr rest =>
    rw [List.length_cons] at hpl
    have hnew : (rest.drop ptr.toNat).length ≤ 184 := by
      rw [List.length_drop]
      omega
    cases hstate : (s.ctxOf pid).state with
    | idle =>
      rw [exec_secStart_idle ptr rest hstate] at he
      exact eq_of_next he ▸ h.taken_restart hwf hd hnew
    | accumulating =>
      rw [exec_secStart_accumulating ptr rest hstate] at he
      have htail : (rest.take ptr.toNat).length ≤ 184 := by
        rw [List.length_take]
        omega
      have hcap := length_append_le_bufCap (h.taken_settled rfl pid) htail
      exact eq_of_next he ▸ h.taken_setCtx hwf (fun p hp => absurd hp (hd p)) (Ctx.filled_held _ hcap (by simp))
        (by simpa [Work.fits, Work.carriesPayload] using hnew)

theorem BufInv.of_secAppend (h : BufInv (s.push [.unit (.payload false pid pl)]))
    (he : exec (.secAppend pid pl) s = .next t) : BufInv t := by
  have hd := not_drains_of_code (c := .payload false pid pl) nofun nofun
  cases hstate : (s.ctxOf pid).state with
  | idle =>
    rw [exec_secAppend_idle pl hstate] at he
    exact eq_of_next he ▸ h.taken hd
  | accumulating =>
    rw [exec_secAppend_accumulating pl hstate] at he
    have hcap := length_append_le_bufCap (h.taken_settled rfl pid) (h.fits _ (List.mem_cons_self ..))
    exact eq_of_next he ▸ h.taken_setCtx hwf (fun p hp => absurd hp (hd p)) (Ctx.filled_held _ hcap (by simp))
      (by simp [Work.fits, Work.carriesPayload])

/-- Each turn of the drain leaves its buffer settled, or handed to SEC.STUFF, or shorter than before with the next turn
pending. -/
theorem BufInv.of_secDrain (h : BufInv (s.push [.unit (.drain pid)])) (he : exec (.secDrain pid) s = .next t) :
    BufInv t := by
  have hd (p : Pid) (hp : (Work.unit (.drain pid)).drains p) : p = pid := eq_of_drain_drains hp
  have hheld : (s.ctxOf pid).held pid (.unit (.drain pid) :: s.work) := h.buffers pid
  have hlen := hheld.length_le
  by_cases hempty : (s.ctxOf pid).buf = []
  · rw [exec_secDrain_empty hempty] at he
    exact eq_of_next he ▸ h.taken_idled hwf hd
  have hacc := hheld.accumulating hempty
  by_cases hpad : byteAt (s.ctxOf pid).buf 0 = 0xFF#8
  · rw [exec_secDrain_padding hempty hpad] at he
    have hdrain : drainPending pid (.unit (.table pid [] (s.ctxOf pid).buf) :: s.work) :=
      drainPending_cons.2 (.inl (.inr ⟨_, _, rfl, hempty, hpad⟩))
    exact eq_of_next he ▸ h.taken_at rfl rfl (fun _ _ => rfl) hd (.inr ⟨hacc, hlen, hdrain⟩)
      (by simp [Work.fits, Work.carriesPayload])
  by_cases hwait : incomplete (s.ctxOf pid).buf
  · rw [exec_secDrain_incomplete hwait] at he
    exact eq_of_next he ▸ h.taken_at (front := []) rfl rfl (fun _ _ => rfl) hd (.inl (.inr ⟨hacc, hwait⟩))
      (List.forall_mem_nil _)
  · rw [exec_secDrain_section hempty hpad hwait] at he
    have hrest : ((s.ctxOf pid).buf.drop (sectionTotal (s.ctxOf pid).buf)).length ≤ bufCap := by
      rw [List.length_drop]
      omega
    exact eq_of_next he ▸ h.taken_setCtx hwf hd (.inr ⟨hacc, hrest, .inl (by simp)⟩)
      (by simp [Work.fits, Work.carriesPayload])

end

/-! ## Units (R213, R214, R216, R220, R221) -/

/-- A section that begins with padding is handed to SEC.STUFF, every other one to an instruction that leaves the
buffers alone. -/
theorem decodeTable_cases {cfg : Config} {pid : Pid} {rs : List Role} {sec : Bytes} {i : Instr}
    (h : decodeTable cfg pid rs sec = .ok i) :
    (byteAt sec 0 = 0xFF#8 ∧ i = .secStuff pid) ∨ (byteAt sec 0 ≠ 0xFF#8 ∧ leavesBuffers i = true) := by
  unfold decodeTable at h
  split at h
  · cases h
  · split at h
    · next hpad => exact .inl ⟨hpad, (Except.ok.inj h).symm⟩
    · next hpad =>
      refine .inr ⟨hpad, ?_⟩
      split at h
      · exact Except.ok.inj h ▸ rfl
      · split at h
        · exact Except.ok.inj h ▸ leavesBuffers_tableInstr _ _
        · exact Except.ok.inj h ▸ rfl

theorem decodeExtracted_cases {cfg : Config} {pid : Pid} {sec : Bytes} {i : Instr}
    (h : decodeExtracted cfg pid sec = .ok i) : i = .secSt sec ∨ i = .secCrc pid sec := by
  unfold decodeExtracted at h
  split at h
  · cases h
  · split at h
    · exact .inl (Except.ok.inj h).symm
    · exact .inr (Except.ok.inj h).symm

theorem leavesBuffers_of_decodePcr {sync : Byte} {p : Bytes} {i : Instr} (h : decodePcr sync p = .ok i) :
    leavesBuffers i = true := by
  unfold decodePcr at h
  split_ifs at h
  exact Except.ok.inj h ▸ rfl

theorem leavesBuffers_of_decodeDescriptor {cfg : Config} {ns : Namespace} {bytes : Bytes} {i : Instr}
    (h : decodeDescriptor cfg ns bytes = .ok i) : leavesBuffers i = true := by
  unfold decodeDescriptor at h
  split at h
  · exact Except.ok.inj h ▸ leavesBuffers_descInstr _ _ _ _
  · cases h

theorem leavesBuffers_of_nextDescriptor {cfg : Config} {ns : Namespace} {r r' : Bytes} {i : Instr}
    (h : nextDescriptor cfg ns r = some (i, r')) : leavesBuffers i = true := by
  obtain ⟨⟨tag, body, rest⟩, -, hi⟩ := Option.map_eq_some_iff.1 h
  cases hi
  exact leavesBuffers_descInstr _ _ _ _

/-- What drains a buffer is an instruction. -/
theorem not_drains_of_decode_error {cfg : Config} {c : Code} {e : DecodeError} (h : decode cfg c = .error e) (p : Pid) :
    ¬ (Work.unit c).drains p := by
  rintro (hc | ⟨rs, b, hc, hne, hpad⟩) <;> cases hc
  · cases h
  · obtain ⟨tid, tail, rfl⟩ := List.exists_cons_of_ne_nil hne
    have hstuff : decodeTable cfg p rs (tid :: tail) = .ok (.secStuff p) := if_pos hpad
    cases h.symm.trans hstuff

section
variable {s t : State} {i : Instr}

theorem BufInv.taken_leaves {w : Work} (h : BufInv (s.push [w])) (hd : ∀ p, ¬ w.drains p) (hi : leavesBuffers i = true)
    (he : exec i s = .next t) : BufInv t := (h.taken hd).congr (exec_sameBuffers hi he)

/-- A section with a bad CRC counts an error, a good one is dispatched, stuffing is dropped. -/
theorem BufInv.of_secCrc {pid : Pid} {sec : Bytes} (h : BufInv (s.push [.unit (.extracted pid sec)]))
    (he : exec (.secCrc pid sec) s = .next t) : BufInv t := by
  have hd := not_drains_of_code (c := .extracted pid sec) nofun nofun
  by_cases hstuff : byteAt sec 0 ∈ s.cfg.stuffingIds
  · rw [exec_secCrc_stuffing hstuff] at he
    exact eq_of_next he ▸ h.taken hd
  by_cases hvalid : crcValid s.cfg sec = true
  · rw [exec_secCrc_valid hstuff hvalid] at he
    exact eq_of_next he ▸ h.taken_push hd (by simp [Work.fits, Work.carriesPayload])
  · rw [exec_secCrc_invalid hstuff hvalid] at he
    exact eq_of_next he ▸ (h.taken hd).congr ⟨rfl, rfl, id⟩

/-- The instruction of a unit keeps the invariant once the unit is taken off the work. -/
theorem BufInv.of_unit {c : Code} (h : BufInv (s.push [.unit c])) (hwf : Memory.wf s = true)
    (hdec : decode s.cfg c = .ok i) (he : exec i s = .next t) : BufInv t := by
  cases c with
  | cmdWord w => exact (h.taken (not_drains_of_code nofun nofun)).of_exec_host (decodeCmd_hostInstr hdec) he
  | batch | ack =>
    cases hdec
    exact (h.taken (not_drains_of_code nofun nofun)).of_exec_host rfl he
  | packet bytes =>
    obtain ⟨afc, hd, rest, -, -, rfl⟩ := decodePacket_eq_ok hdec
    exact .of_packetInstr (h.taken_settled rfl) h.taken_phase h.taken_rest he
  | pcrPacket => exact h.taken_leaves (not_drains_of_code nofun nofun) (leavesBuffers_of_decodePcr hdec) he
  | payloadPacket =>
    cases hdec
    exact h.of_secCc hwf he
  | payload pusi =>
    cases pusi <;> cases hdec
    · exact h.of_secAppend hwf he
    · exact h.of_secStart hwf he
  | drain =>
    cases hdec
    exact h.of_secDrain hwf he
  | extracted =>
    obtain rfl | rfl := decodeExtracted_cases hdec
    · exact h.taken_leaves (not_drains_of_code nofun nofun) rfl he
    · exact h.of_secCrc he
  | validated =>
    cases hdec
    exact eq_of_next he ▸ h.taken_push (not_drains_of_code nofun nofun) (by simp [Work.fits, Work.carriesPayload])
  | table pid rs sec =>
    obtain ⟨-, rfl⟩ | ⟨hpad, hi⟩ := decodeTable_cases hdec
    · exact eq_of_next he ▸ h.taken_idled hwf fun _ hd => (of_table_drains hd).1
    · exact h.taken_leaves (fun _ hd => hpad (of_table_drains hd).2.2) hi he
  | descriptor => exact h.taken_leaves (not_drains_of_code nofun nofun) (leavesBuffers_of_decodeDescriptor hdec) he
  | event ev =>
    cases hdec
    exact h.taken_leaves (not_drains_of_code nofun nofun) (leavesBuffers_eventInstr ev) he

end

/-! ## The step -/

/-- The head of the work is taken off and put back. -/
theorem push_head {s : State} {w : Work} {rest : List Work} (hw : s.work = w :: rest) :
    State.push { s with work := rest } [w] = s := by
  rw [State.push, List.singleton_append, ← hw]

section
variable {s t : State} (h : BufInv s)
include h

/-- Between packets every buffer is settled, and the framing loop writes none. -/
theorem BufInv.of_framing (hp : s.phase = .inBatch) (hw : s.work = [])
    (he : engineStep s = .next t) : BufInv t := by
  have hset (p : Pid) : (s.ctxOf p).settled := h.settled_of_no_drain (hw ▸ not_drainPending_nil p)
  unfold engineStep at he
  cases hdec : decodePacket s.cfg.syncByte ((s.stream.drop s.pc).take packetLength) with
  | ok i =>
    obtain ⟨afc, hd, rest, -, -, rfl⟩ := decodePacket_eq_ok hdec
    rw [todo_packet hw hdec] at he
    exact .of_packetInstr (s := { s with work := [.endPacket] }) hset (by simp [hp])
      (by simp [Work.fits, Work.carriesPayload]) he
  | error e =>
    rw [todo_reframe hw (by rw [State.packetHere, hdec])] at he
    obtain rfl := eq_of_next he
    obtain ⟨-, hr⟩ | ⟨-, -, hr⟩ | ⟨-, -, -, hr⟩ | ⟨-, -, -, hr⟩ := reframe_cases s <;> rw [hr] <;>
      exact .of_no_work hset hw

theorem BufInv.of_engineStep (hwf : Memory.wf s = true) (hp : s.phase = .inBatch) (he : engineStep s = .next t) :
    BufInv t := by
  cases hw : s.work with
  | nil => exact h.of_framing hp hw he
  | cons w rest =>
    have htaken : BufInv (State.push { s with work := rest } [w]) := (push_head hw).symm ▸ h
    unfold engineStep at he
    cases w with
    | unit c =>
      cases hdec : decode s.cfg c with
      | ok i =>
        rw [todo_unit hw hdec] at he
        exact htaken.of_unit hwf hdec he
      | error e =>
        rw [todo_unit_error hw hdec] at he
        exact eq_of_next he ▸ htaken.taken (not_drains_of_decode_error hdec)
    | region ns r =>
      have hd := not_drains_of_no_unit (w := .region ns r) nofun
      cases hdec : nextDescriptor s.cfg ns r with
      | none =>
        rw [todo_region_end hw hdec] at he
        exact eq_of_next he ▸ htaken.taken hd
      | some next =>
        obtain ⟨i, r'⟩ := next
        rw [todo_region hw hdec] at he
        have hregion := htaken.taken_push (front := [.region ns r']) hd (by simp [Work.fits, Work.carriesPayload])
        exact hregion.congr (exec_sameBuffers (leavesBuffers_of_nextDescriptor hdec) he)
    | restart pid new =>
      rw [todo_restart hw] at he
      exact eq_of_next he ▸ htaken.taken_restart hwf (not_drains_of_no_unit nofun)
        (h.fits (.restart pid new) (hw ▸ List.mem_cons_self ..))
    | endPacket =>
      rw [todo_endPacket hw] at he
      exact eq_of_next he ▸ (htaken.taken (not_drains_of_no_unit nofun)).congr ⟨rfl, rfl, id⟩

/-- An action of the host keeps the invariant in every phase. -/
theorem BufInv.of_hostStep {a : HostAct} (he : hostStep a s = .next t) : BufInv t := by
  obtain ⟨w, i, -, hi, he⟩ | ⟨w, e, -, -, he⟩ | ⟨bytes, -, he⟩ | ⟨-, he⟩ | ⟨-, rfl⟩ := hostStep_cases he
  · exact h.of_exec_host (decodeCmd_hostInstr hi) he
  · exact eq_of_next he ▸ h.congr ⟨rfl, rfl, id⟩
  · exact h.of_exec_host rfl he
  · exact h.of_exec_host rfl he
  · exact BufInv.powerOn s

theorem BufInv.withHost (l : List HostItem) : BufInv { s with host := l } := h.congr ⟨rfl, rfl, id⟩

end

/-- Settles O15: an action of the host leaves the buffers alone or clears them, and the engine handles the head of its
work, or turns the framing loop when there is none. -/
theorem bufInvEveryStep : Obligations.BufInvEveryStep := by
  intro s t hinv h he
  unfold step at he
  split at he
  next a u ha =>
    obtain ⟨_, rest, -, rfl, -⟩ := takeAction_some ha
    exact (h.withHost rest).of_hostStep he
  next =>
    split at he
    next hp => exact (h.withHost (tickHost s.host)).of_engineStep hinv.memory hp he
    next => exact eq_of_next he ▸ h

end Sys2Proof.Machine
end

section
/-! Proofs of the family 43_table_decoders.md: the loop of entries (R253), when a decoder commits its record (R250 to
R252), the records by their fields (R257 to R263), and what leaves a record alone. -/

namespace Sys2Proof.Machine

/-! ## A loop of entries (R253) -/

section
variable {α : Type} {k e : Nat} (entry : Nat → α) (size : Nat → Nat)

theorem entries_past_end (n : Nat) {o : Nat} (h : ¬ o + k ≤ e) : entries k e entry size n o = [] := by
  cases n with
  | zero => rfl
  | succ n => exact if_neg h

/-- More turns than there are bytes left change nothing. -/
theorem entries_stable (hk : 1 ≤ k) (hsize : ∀ p, 1 ≤ size p) {n m o : Nat} (hn : e ≤ n + o) (hm : e ≤ m + o) :
    entries k e entry size n o = entries k e entry size m o := by
  induction n generalizing m o with
  | zero => rw [entries_past_end entry size 0 (by omega), entries_past_end entry size m (by omega)]
  | succ n ih =>
    by_cases h : o + k ≤ e
    · obtain ⟨m, rfl⟩ : ∃ m', m = m' + 1 := ⟨m - 1, by omega⟩
      have hnext := hsize o
      rw [entries, entries, if_pos h, if_pos h, ih (m := m) (by omega) (by omega)]
    · rw [entries_past_end entry size _ h, entries_past_end entry size _ h]

theorem entries_turn (hk : 1 ≤ k) (hsize : ∀ p, 1 ≤ size p) {n o : Nat} (hn : e ≤ n + o) (h : o + k ≤ e) :
    entries k e entry size n o = entry o :: entries k e entry size n (o + size o) := by
  have hnext := hsize o
  obtain ⟨n, rfl⟩ : ∃ n', n = n' + 1 := ⟨n - 1, by omega⟩
  rw [entries, if_pos h, entries_stable entry size hk hsize (m := n + 1) (by omega) (by omega)]

end

/-- Settles O47: a turn takes at least one byte, so the bound on the turns is never reached. -/
theorem entryLoop : Obligations.EntryLoop := by
  intro α k e f size n o hk hsize hn
  by_cases h : o + k ≤ e
  · rw [if_pos h, entries_turn f size hk hsize hn h]
  · rw [if_neg h, entries_past_end f size n h]

/-! ## Parse, test for a duplicate, commit (R250, R252) -/

/-- What a table decoder does: nothing where the section does not parse or its record is a duplicate, else the state
with the record committed. -/
def commitUnless {α : Type} (parsed : Option α) (duplicate : α → Bool) (s : State) (committed : α → State) :
    Result State :=
  match parsed with
  | none => .next s
  | some r => .next (if duplicate r then s else committed r)

section
variable {α : Type} {parsed : Option α} {duplicate : α → Bool} {s : State} {committed : α → State} {r : α}

theorem commitUnless_dropped (h : parsed = none) : commitUnless parsed duplicate s committed = .next s := by
  rw [h, commitUnless]

theorem commitUnless_duplicate (h : ∀ r, parsed = some r → duplicate r = true) :
    commitUnless parsed duplicate s committed = .next s := by
  cases parsed with
  | none => rfl
  | some r => rw [commitUnless, if_pos (h r rfl)]

theorem commitUnless_new (h : parsed = some r) (hd : duplicate r = false) :
    commitUnless parsed duplicate s committed = .next (committed r) := by
  rw [h, commitUnless, hd]
  rfl

end

section
variable (sec : Bytes) (s : State)

theorem exec_secPat : exec (.secPat sec) s = commitUnless (parsePat s.cfg sec)
    (fun r => sameVersion s.pat.valid s.pat.header r.header) s fun r => State.notify { s with pat := r } .pat := by
  rw [exec, execSecPat]
  cases parsePat s.cfg sec <;> rfl

theorem exec_secPmt : exec (.secPmt sec) s = commitUnless (parsePmt s.cfg sec)
    (fun r => sameVersion s.pmt.valid s.pmt.header r.header) s fun r => State.notify { s with pmt := r } .pmt := by
  rw [exec, execSecPmt]
  cases parsePmt s.cfg sec <;> rfl

theorem exec_secNit : exec (.secNit sec) s = commitUnless (parseNit s.cfg sec)
    (fun r => sameVersion s.nit.valid s.nit.header r.header) s fun r => State.notify { s with nit := r } .nit := by
  rw [exec, execSecNit]
  cases parseNit s.cfg sec <;> rfl

theorem exec_secSdt : exec (.secSdt sec) s = commitUnless (parseSdt s.cfg sec)
    (fun r => sameVersion s.sdt.valid s.sdt.header r.header) s fun r => State.notify { s with sdt := r } .sdt := by
  rw [exec, execSecSdt]
  cases parseSdt s.cfg sec <;> rfl

/-! The EIT, the TDT and the AIT suppress no duplicates. -/

theorem exec_secEit : exec (.secEit sec) s = commitUnless (parseEit s.cfg sec)
    (fun _ => false) s fun r => State.notify { s with eit := r } .eit := by
  rw [exec, execSecEit]
  cases parseEit s.cfg sec <;> rfl

theorem exec_secTdt : exec (.secTdt sec) s = commitUnless (parseTdt s.cfg sec)
    (fun _ => false) s fun r => State.notify { s with tdt := r } .tdt := by
  rw [exec, execSecTdt]
  cases parseTdt s.cfg sec <;> rfl

theorem exec_secAit : exec (.secAit sec) s = commitUnless (parseAit s.cfg sec)
    (fun _ => false) s fun r => State.notify { s with ait := r } .ait := by
  rw [exec, execSecAit]
  cases parseAit s.cfg sec <;> rfl

theorem exec_secDsmcc (h : 8 ≤ sectionEnd s.cfg sec) :
    exec (.secDsmcc sec) s = .next (s.processDownload (dsmccEntry sec)) := by
  rw [exec, execSecDsmcc, if_neg (by omega)]

end

/-- The test for a duplicate of a record that is new. -/
theorem sameVersion_eq_false {valid : Bool} {held new : LongHeader}
    (h : valid = false ∨ new.versionNumber ≠ held.versionNumber ∨ new.sectionNumber ≠ held.sectionNumber) :
    sameVersion valid held new = false := by
  rw [← Bool.not_eq_true, sameVersion_iff]
  rintro ⟨hvalid, hversion, hsection⟩
  obtain h | h | h := h
  · exact Bool.false_ne_true (h.symm.trans hvalid)
  · exact h hversion
  · exact h hsection

/-- Settles O48: a section below the minimum does not parse, and a record that parses has the header of its section. -/
theorem ignoredSections : Obligations.IgnoredSections := by
  refine ⟨fun s sec => ⟨fun h => ⟨?pat, ?tdt, ?dsmcc⟩, fun h => ?pmt, fun h => ⟨?nit, ?ait⟩, fun h => ?sdt,
    fun h => ?eit⟩, fun s sec => ?duplicate⟩
  case pat => exact (exec_secPat sec s).trans (commitUnless_dropped (if_pos h))
  case tdt => exact (exec_secTdt sec s).trans (commitUnless_dropped (if_pos h))
  case dsmcc => rw [exec, execSecDsmcc, if_pos h]
  case pmt => exact (exec_secPmt sec s).trans (commitUnless_dropped (if_pos h))
  case nit => exact (exec_secNit sec s).trans (commitUnless_dropped (if_pos h))
  case ait => exact (exec_secAit sec s).trans (commitUnless_dropped (if_pos h))
  case sdt => exact (exec_secSdt sec s).trans (commitUnless_dropped (if_pos h))
  case eit => exact (exec_secEit sec s).trans (commitUnless_dropped (if_pos h))
  case duplicate =>
    have hdup {valid : Bool} {held : LongHeader} (hv : valid = true)
        (hn : (byteAt sec 5).extractLsb' 1 5 = held.versionNumber) (hs : byteAt sec 6 = held.sectionNumber) :
        sameVersion valid held (longHeader sec) = true := (sameVersion_iff _ _ _).2 ⟨hv, hn, hs⟩
    refine ⟨fun hv hn hs => ?_, fun hv hn hs => ?_, fun hv hn hs => ?_, fun hv hn hs => ?_⟩
    · exact (exec_secPat sec s).trans (commitUnless_duplicate fun r hr => eq_of_guarded hr ▸ hdup hv hn hs)
    · exact (exec_secPmt sec s).trans (commitUnless_duplicate fun r hr => eq_of_guarded hr ▸ hdup hv hn hs)
    · exact (exec_secNit sec s).trans (commitUnless_duplicate fun r hr => eq_of_guarded hr ▸ hdup hv hn hs)
    · exact (exec_secSdt sec s).trans (commitUnless_duplicate fun r hr => eq_of_guarded hr ▸ hdup hv hn hs)

/-- Settles O51: the record of a section that is long enough, field by field. -/
theorem nitSdtCommit : Obligations.NitSdtCommit := by
  rintro s sec e rfl
  refine ⟨fun hmin hnew => ?nit, fun hmin hnew => ?sdt⟩
  case nit =>
    refine ⟨_, (exec_secNit sec s).trans (commitUnless_new (if_neg (not_lt.2 hmin)) (sameVersion_eq_false hnew)),
      rfl, rfl, rfl, rfl, ?_⟩
    rintro o rfl
    refine ⟨fun hno => ⟨if_neg (not_le.2 hno), if_neg (not_le.2 hno)⟩, fun hfit => ⟨if_pos hfit, ?_⟩⟩
    rintro l rfl
    exact if_pos hfit
  case sdt =>
    exact ⟨_, (exec_secSdt sec s).trans (commitUnless_new (if_neg (not_lt.2 hmin)) (sameVersion_eq_false hnew)),
      rfl, rfl, rfl, rfl⟩

/-- Settles O52: the same without a test for a duplicate. -/
theorem eitTdtAitCommit : Obligations.EitTdtAitCommit := by
  rintro s sec e rfl
  refine ⟨fun hmin => ?eit, fun hmin => ?tdt, fun hmin => ?ait⟩
  case eit =>
    exact ⟨_, (exec_secEit sec s).trans (commitUnless_new (if_neg (not_lt.2 hmin)) rfl),
      rfl, rfl, rfl, rfl, rfl, rfl, rfl⟩
  case tdt =>
    exact (exec_secTdt sec s).trans (commitUnless_new (if_neg (not_lt.2 hmin)) rfl)
  case ait =>
    refine ⟨_, (exec_secAit sec s).trans (commitUnless_new (if_neg (not_lt.2 hmin)) rfl),
      rfl, rfl, ?flag, ?type, rfl, rfl, ?_⟩
    case flag => exact BitVec.extractLsb'_append_eq_of_le (by decide)
    case type => rfl
    rintro o rfl
    refine ⟨fun hno => ⟨if_neg (not_le.2 hno), if_neg (not_le.2 hno)⟩, fun hfit => ⟨if_pos hfit, ?_⟩⟩
    rintro l rfl
    exact if_pos hfit

/-- Settles O53: the three cases of `ProcessDownload` (R263). -/
theorem dsmccCollects : Obligations.DsmccCollects := by
  rintro s sec e hmin rfl
  rw [exec_secDsmcc sec s hmin]
  obtain ⟨hstate, he⟩ | ⟨hstate, hdone, he⟩ | ⟨hstate, hdone, he⟩ := processDownload_cases s (dsmccEntry sec) <;>
    rw [he, hstate]
  · exact ⟨fun _ => rfl, nofun, nofun⟩
  · exact ⟨nofun, fun _ hnot => absurd (hdone.symm.trans hnot) (by decide), fun _ _ => rfl⟩
  · exact ⟨nofun, fun _ _ => rfl, fun _ hyes => absurd (hdone.symm.trans hyes) (by decide)⟩

/-! ## Decoded state -/

theorem ebuEvent_of_placeOf_page {i : Instr} {key : EbuKey} (h : placeOf i = .page key) :
    (∃ k, i = .ebuHeader k) ∨ ∃ k r d, i = .ebuLine k r d := by
  cases i with
  | ebuHeader k => exact .inl ⟨k, rfl⟩
  | ebuLine k r d => exact .inr ⟨k, r, d, rfl⟩
  | _ => cases h

/-- Settles O20: a decoder writes the record of its unit, the EBU events and the acknowledgement write pages, and no
other effect but that of `RESET` writes decoded state. -/
theorem decodedStateFrame : Obligations.DecodedStateFrame := by
  intro i s t he hi
  cases exec_effect he with
  | cleared => exact absurd rfl hi
  | pat | pmt | nit | sdt | eit | tdt | ait | collected | completed | pcr => simp
  | page key lines hp => simpa using fun _ => (ebuEvent_of_placeOf_page hp).imp_right .inl
  | acknowledged =>
    obtain ⟨k, -, -, hack⟩ | ⟨-, hack⟩ := acknowledge_cases s <;> simp [hack]
  | _ => simp

/-! ## The collector stays complete (R263, R265) -/

section
variable {s t : State} (hc : s.dsmcc.state = .complete)
include hc

/-- Once complete, the collector ignores every section, and only a `RESET` that is obeyed clears it. -/
theorem dsmcc_complete_of_exec {i : Instr} (hi : i = .reset → s.phase ≠ .ready) (he : exec i s = .next t) :
    t.dsmcc.state = .complete := by
  by_cases hreset : i = .reset
  · subst hreset
    exact eq_of_next ((inReady_of_not_ready _ (hi rfl)).symm.trans he) ▸ hc
  by_cases hsame : t.dsmcc = s.dsmcc
  · rw [hsame, hc]
  obtain ⟨-, -, -, -, -, -, -, hdsmcc, -, -⟩ := decodedStateFrame i s t he hreset
  obtain ⟨sec, rfl⟩ := hdsmcc hsame
  obtain rfl := eq_of_next he
  split
  · exact hc
  · obtain ⟨-, hp⟩ | ⟨hcol, -⟩ | ⟨hcol, -⟩ := processDownload_cases s (dsmccEntry sec)
    · rw [hp, hc]
    · cases hc.symm.trans hcol
    · cases hc.symm.trans hcol

/-- An action of the host keeps it complete, except for a `RESET` and the reset input. -/
theorem dsmcc_complete_of_hostStep {a : HostAct} (he : hostStep a s = .next t) :
    t.dsmcc.state = .complete ∨ a = .powerOn ∨ ∃ w, a = .cmd w ∧ decodeCmd w = .ok .reset := by
  obtain ⟨w, i, ha, hi, he⟩ | ⟨w, e, -, -, he⟩ | ⟨bytes, -, he⟩ | ⟨-, he⟩ | ⟨ha, -⟩ := hostStep_cases he
  · by_cases hreset : i = .reset
    · exact .inr (.inr ⟨w, ha, hreset ▸ hi⟩)
    · exact .inl (dsmcc_complete_of_exec hc (absurd · hreset) he)
  · exact .inl (eq_of_next he ▸ hc)
  · exact .inl (dsmcc_complete_of_exec (i := .process bytes) hc nofun he)
  · exact .inl (dsmcc_complete_of_exec (i := .ack) hc nofun he)
  · exact .inr (.inl ha)

/-- A step of the engine keeps it complete: a `RESET` is refused in a batch (40_host_commands.md R142). -/
theorem dsmcc_complete_of_engineStep (hp : s.phase = .inBatch) (he : engineStep s = .next t) :
    t.dsmcc.state = .complete := by
  unfold engineStep at he
  obtain ⟨i, w, htodo⟩ | ⟨w, n, htodo⟩ | ⟨w, pid, new, htodo⟩ | ⟨-, -, htodo⟩ := todo_cases s <;> rw [htodo] at he
  · have hnotReady := State.phase_ne_ready_of_inBatch hp
    exact dsmcc_complete_of_exec (s := { s with work := w }) hc (fun _ => hnotReady) he
  · exact eq_of_next he ▸ hc
  · rw [eq_of_next he, restart_frame]
    exact hc
  · obtain rfl := eq_of_next he
    obtain ⟨-, hr⟩ | ⟨-, -, hr⟩ | ⟨-, -, -, hr⟩ | ⟨-, -, -, hr⟩ := reframe_cases s <;> rw [hr] <;> exact hc

end

/-- Settles O33: a step is an action of the host, one of the engine, or nothing. -/
theorem dsmccStaysComplete : Obligations.DsmccStaysComplete := by
  refine ⟨fun s hp => readCmd_of_not_inBatch _ hp, fun s t hc he => ?_⟩
  unfold step at he
  split at he
  next a u ha =>
    obtain ⟨_, rest, -, rfl, -⟩ := takeAction_some ha
    obtain hkeep | hreset := dsmcc_complete_of_hostStep (s := { s with host := rest }) hc he
    · exact .inl hkeep
    · exact .inr ⟨a, _, ha, hreset⟩
  next =>
    split at he
    next hp => exact .inl (dsmcc_complete_of_engineStep (s := s.ticked) hc hp he)
    next => exact .inl (eq_of_next he ▸ hc)

end Sys2Proof.Machine
end

section
/-! Sections written from their fields read back to them (43_table_decoders.md R250 to R256): fields by what a section
holds from their offset on, the long header, the loops of entries, then the PAT and the PMT. -/

namespace Sys2Proof.Machine

/-! ## Fields by what the section holds from an offset on -/

section
variable {s rest : Bytes} {o : Nat}

/-- What a section holds behind a part of `n` bytes. -/
theorem drop_add_of_append {a : Bytes} {n : Nat} (h : s.drop o = a ++ rest) (ha : a.length = n) :
    s.drop (o + n) = rest := by
  rw [← List.drop_drop, h, List.drop_left' ha]

theorem byteAt_of_drop {b : Byte} (h : s.drop o = b :: rest) : byteAt s o = b := by
  rw [← byteAt_drop, h]
  rfl

theorem u16_of_drop {v : BitVec 16} (h : s.drop o = be16 v ++ rest) : u16 s o = v := by
  rw [be16, List.cons_append, List.cons_append, List.nil_append] at h
  rw [u16, byteAt_of_drop h, byteAt_of_drop (drop_add_of_append (a := [_]) (n := 1) h rfl)]
  exact (BitVec.extractLsb'_append_extractLsb'_eq_extractLsb' rfl).trans BitVec.extractLsb'_eq_self

theorem pid13_of_drop {pid : Pid} (h : s.drop o = be16 (7#3 ++ pid) ++ rest) : pid13 s o = pid := by
  rw [pid13, u16_of_drop h]
  exact BitVec.extractLsb'_append_eq_right

theorem len12_of_drop {r : Bytes} (h : s.drop o = len12Bytes r ++ rest) : len12 s o = BitVec.ofNat 12 r.length := by
  rw [len12, u16_of_drop h]
  exact BitVec.extractLsb'_append_eq_right

/-- A region that ends before `e` is not clamped (R253). -/
theorem region_of_drop {r : Bytes} {e : Nat} {n : BitVec 12} (h : s.drop o = r ++ rest) (hn : n.toNat = r.length)
    (he : o + r.length ≤ e) : region s o n e = r := by
  rw [region, slice, hn, Nat.min_eq_left he, List.drop_take, h, Nat.add_sub_cancel_left, List.take_left]

end

/-! ## The header and the end of a section (R251) -/

theorem be16_length (v : BitVec 16) : (be16 v).length = 2 := rfl

theorem be32_length (v : BitVec 32) : (be32 v).length = 4 := rfl

theorem longHeaderBytes_length (h : LongHeader) : (longHeaderBytes h).length = 8 := rfl

theorem longHeader_longHeaderBytes (h : LongHeader) (rest : Bytes) : longHeader (longHeaderBytes h ++ rest) = h := by
  have hword : u16 (longHeaderBytes h ++ rest) 1 = h.sectionSyntaxIndicator ++ 7#3 ++ h.sectionLength := u16_of_drop rfl
  have hlength : sectionLength (longHeaderBytes h ++ rest) = h.sectionLength := by
    rw [sectionLength, hword]
    exact BitVec.extractLsb'_append_eq_right
  have hext : u16 (longHeaderBytes h ++ rest) 3 = h.tableIdExtension := u16_of_drop rfl
  have hindicator : (byteAt (longHeaderBytes h ++ rest) 1).extractLsb' 7 1 = h.sectionSyntaxIndicator := by
    have hbyte : (byteAt (longHeaderBytes h ++ rest) 1).extractLsb' 7 1 =
        (h.sectionSyntaxIndicator ++ 7#3 ++ h.sectionLength).extractLsb' 15 1 := extractLsb'_extractLsb' _ (by decide)
    rw [hbyte, BitVec.extractLsb'_append_eq_of_le (by decide), BitVec.extractLsb'_append_eq_of_le (by decide)]
    exact BitVec.extractLsb'_eq_self
  have hflags : byteAt (longHeaderBytes h ++ rest) 5 = 3#2 ++ h.versionNumber ++ h.currentNextIndicator := rfl
  have hversion : (byteAt (longHeaderBytes h ++ rest) 5).extractLsb' 1 5 = h.versionNumber := by
    rw [hflags, BitVec.extractLsb'_append_eq_of_le (by decide)]
    exact BitVec.extractLsb'_append_eq_right
  have hcurrent : (byteAt (longHeaderBytes h ++ rest) 5).extractLsb' 0 1 = h.currentNextIndicator := by
    rw [hflags]
    exact BitVec.extractLsb'_append_eq_right
  rw [longHeader, hlength, hext, hindicator, hversion, hcurrent]
  rfl

/-- A section with a long header and a CRC: its header, what stands behind the header, and its end, before the 4 bytes
of the CRC. -/
theorem sectionLayout {cfg : Config} {h : LongHeader} {body sec : Bytes} {crc : BitVec 32}
    (hcrc : h.tableId ∉ cfg.crcExempt) (hsec : sec = longHeaderBytes h ++ (body ++ be32 crc)) :
    longHeader sec = h ∧ sec.drop 8 = body ++ be32 crc ∧ sectionEnd cfg sec = 8 + body.length ∧
      sectionEnd cfg sec + (be32 crc).length = sec.length := by
  have hlen : sec.length = 8 + body.length + 4 := by
    rw [hsec, List.length_append, longHeaderBytes_length, List.length_append, be32_length, Nat.add_assoc]
  have hend : sectionEnd cfg sec = 8 + body.length := by
    have hid : byteAt sec 0 = h.tableId := by rw [hsec]; rfl
    have htrailer : crcLen cfg (byteAt sec 0) = 4 := if_neg (by simpa [hid] using hcrc)
    rw [sectionEnd, htrailer, hlen, Nat.add_sub_cancel]
  exact ⟨hsec ▸ longHeader_longHeaderBytes h _, hsec ▸ List.drop_left' (longHeaderBytes_length h), hend,
    by rw [hend, hlen, be32_length]⟩

/-! ## Loops of entries (R253) -/

/-- A loop over the bytes of a list of entries, up to what follows them, reads the list. -/
theorem entries_flatMap {α β : Type} {k e : Nat} {entry : Nat → α} {size : Nat → Nat} {s tail : Bytes}
    {bytes : β → Bytes} {value : β → α} (hk : 1 ≤ k) (hsize : ∀ p, 1 ≤ size p) (he : e + tail.length = s.length)
    {l : List β} (hmin : ∀ x ∈ l, k ≤ (bytes x).length)
    (hread : ∀ x ∈ l, ∀ p rest, s.drop p = bytes x ++ rest → p + (bytes x).length ≤ e →
      entry p = value x ∧ size p = (bytes x).length)
    {n o : Nat} (hn : e ≤ n + o) (hs : s.drop o = l.flatMap bytes ++ tail) :
    entries k e entry size n o = l.map value := by
  have hlen := congrArg List.length hs
  rw [List.length_drop, List.length_append] at hlen
  induction l generalizing o with
  | nil => exact entries_past_end entry size n (by rw [List.flatMap_nil, List.length_nil] at hlen; omega)
  | cons x l ih =>
    obtain ⟨hx, hl⟩ := List.forall_mem_cons.1 hmin
    obtain ⟨hreadx, hreadl⟩ := List.forall_mem_cons.1 hread
    rw [List.flatMap_cons, List.append_assoc] at hs
    rw [List.flatMap_cons, List.length_append] at hlen
    obtain ⟨hentry, hnext⟩ := hreadx o _ hs (by omega)
    rw [entries_turn entry size hk hsize hn (by omega), hentry, hnext,
      ih hl hreadl (by omega) (drop_add_of_append hs rfl) (by omega), List.map_cons]

/-! ## The PAT (R255) -/

theorem patEntry_of_drop {s rest : Bytes} {o : Nat} {x : PatEntry} (h : s.drop o = patEntryBytes x ++ rest) :
    patEntry s o = x := by
  rw [patEntryBytes, List.append_assoc] at h
  rw [patEntry, u16_of_drop h, pid13_of_drop (drop_add_of_append (n := 2) h rfl)]

theorem patPrograms_of_drop {s tail : Bytes} {o e : Nat} {programs : List PatEntry} (he : e + tail.length = s.length)
    (hs : s.drop o = programs.flatMap patEntryBytes ++ tail) :
    entries 4 e (patEntry s) (fun _ => 4) s.length o = programs := by
  have hread : ∀ x ∈ programs, ∀ p rest, s.drop p = patEntryBytes x ++ rest → p + (patEntryBytes x).length ≤ e →
      patEntry s p = id x ∧ 4 = (patEntryBytes x).length := fun _ _ _ _ hp _ => ⟨patEntry_of_drop hp, rfl⟩
  rw [entries_flatMap (by decide) (by simp) he (fun _ _ => le_refl 4) hread (by omega) hs, List.map_id]

theorem parsePat_of_patSection {cfg : Config} {h : LongHeader} {programs : List PatEntry} {crc : BitVec 32}
    {sec : Bytes} (hcrc : h.tableId ∉ cfg.crcExempt) (hsec : sec = patSection h programs crc) :
    parsePat cfg sec = some { valid := true, header := h, programs := programs } := by
  rw [patSection, List.append_assoc] at hsec
  obtain ⟨hheader, hloop, hend, hcovered⟩ := sectionLayout hcrc hsec
  rw [parsePat, patPrograms_of_drop hcovered hloop, hheader]
  exact if_neg (by omega)

/-- Settles O49: the section parses to the record of its header and programs, which is no duplicate. -/
theorem patRoundTrip : Obligations.PatRoundTrip := by
  intro s h programs crc hcrc hnew
  have hparse := parsePat_of_patSection hcrc (rfl : patSection h programs crc = _)
  exact (exec_secPat _ s).trans (commitUnless_new hparse (sameVersion_eq_false hnew))

/-! ## A descriptor region behind its length (44_descriptors.md R300) -/

/-- The walk of a region written from its descriptors. -/
theorem descList_descRegion (cfg : Config) (ns : Namespace) {l : List (Byte × Bytes)} (h : ∀ d ∈ l, d.2.length < 256) :
    descList cfg ns (descRegion l) = synthList cfg ns l := by
  induction l with
  | nil => rfl
  | cons d l ih =>
    obtain ⟨hd, hl⟩ := List.forall_mem_cons.1 h
    have hsplit : splitDescriptor (descRegion (d :: l)) = some (d.1, d.2, descRegion l) :=
      splitDescriptor_descriptorBytes d.1 d.2 (descRegion l) hd
    rw [descList_some cfg ns _ hsplit, ih hl]
    rfl

theorem toNat_length_of_regionFits {l : List (Byte × Bytes)} (h : regionFits l) :
    (BitVec.ofNat 12 (descRegion l).length).toNat = (descRegion l).length := by
  obtain ⟨-, hlen⟩ := h
  rw [BitVec.toNat_ofNat, Nat.mod_eq_of_lt hlen]

theorem descList_region_of_drop {cfg : Config} {ns : Namespace} {s rest : Bytes} {o e : Nat} {l : List (Byte × Bytes)}
    (hfits : regionFits l) (h : s.drop o = descRegion l ++ rest) (he : o + (descRegion l).length ≤ e) :
    descList cfg ns (region s o (BitVec.ofNat 12 (descRegion l).length) e) = synthList cfg ns l := by
  obtain ⟨hbodies, -⟩ := id hfits
  rw [region_of_drop h (toNat_length_of_regionFits hfits) he, descList_descRegion cfg ns hbodies]

/-! ## The PMT (R256) -/

/-- The elementary stream that a synthetic one describes. -/
def SynthStream.record (cfg : Config) (x : SynthStream) : PmtStream where
  streamType := x.streamType
  elementaryPid := x.elementaryPid
  esInfoLength := BitVec.ofNat 12 (descRegion x.descriptors).length
  descriptors := synthList cfg .si x.descriptors

theorem pmtStreamBytes_length (x : SynthStream) :
    (pmtStreamBytes x).length = 5 + (descRegion x.descriptors).length := by
  rw [pmtStreamBytes, List.length_append]
  rfl

theorem pmtStream_of_drop {cfg : Config} {s rest : Bytes} {o e : Nat} {x : SynthStream}
    (hfits : regionFits x.descriptors) (h : s.drop o = pmtStreamBytes x ++ rest)
    (he : o + (pmtStreamBytes x).length ≤ e) :
    pmtStream cfg s e o = x.record cfg ∧ 5 + (len12 s (o + 3)).toNat = (pmtStreamBytes x).length := by
  rw [pmtStreamBytes_length] at he ⊢
  rw [pmtStreamBytes, List.append_assoc, List.append_assoc, List.append_assoc] at h
  have hpid := drop_add_of_append (n := 1) h rfl
  have hlen := drop_add_of_append (n := 2) hpid rfl
  have hregion := drop_add_of_append (n := 2) hlen rfl
  have hinfo : len12 s (o + 3) = BitVec.ofNat 12 (descRegion x.descriptors).length := len12_of_drop hlen
  refine ⟨?_, by rw [hinfo, toNat_length_of_regionFits hfits]⟩
  rw [pmtStream, hinfo, byteAt_of_drop h, pid13_of_drop hpid, descList_region_of_drop hfits hregion (by omega)]
  rfl

theorem pmtStreams_of_drop {cfg : Config} {s tail : Bytes} {o e : Nat} {streams : List SynthStream}
    (hfits : ∀ x ∈ streams, regionFits x.descriptors) (he : e + tail.length = s.length)
    (hs : s.drop o = streams.flatMap pmtStreamBytes ++ tail) :
    entries 5 e (pmtStream cfg s e) (fun o => 5 + (len12 s (o + 3)).toNat) s.length o =
      streams.map (SynthStream.record cfg) := by
  have hmin : ∀ x ∈ streams, 5 ≤ (pmtStreamBytes x).length := fun x _ => by
    rw [pmtStreamBytes_length]
    omega
  exact entries_flatMap (by decide) (fun p => by omega) he hmin (fun x hx _ _ => pmtStream_of_drop (hfits x hx))
    (by omega) hs

theorem parsePmt_of_pmtSection {cfg : Config} {h : LongHeader} {pcrPid : Pid} {info : List (Byte × Bytes)}
    {streams : List SynthStream} {crc : BitVec 32} {sec : Bytes} (hcrc : h.tableId ∉ cfg.crcExempt)
    (hinfo : regionFits info) (hstreams : ∀ x ∈ streams, regionFits x.descriptors)
    (hsec : sec = pmtSection h pcrPid info streams crc) :
    parsePmt cfg sec = some
      { valid := true, header := h, pcrPid := pcrPid, programInfoLength := BitVec.ofNat 12 (descRegion info).length,
        programInfo := synthList cfg .si info, streams := streams.map (SynthStream.record cfg) } := by
  have hlayout : sec = longHeaderBytes h ++ ((be16 (7#3 ++ pcrPid) ++ (len12Bytes (descRegion info) ++
      (descRegion info ++ streams.flatMap pmtStreamBytes))) ++ be32 crc) := by
    simp only [hsec, pmtSection, List.append_assoc]
  obtain ⟨hheader, hbody, hend, hcovered⟩ := sectionLayout hcrc hlayout
  have hmin : 12 + (descRegion info).length ≤ sectionEnd cfg sec := by
    have hbytes : (len12Bytes (descRegion info)).length = 2 := rfl
    simp only [hend, List.length_append, hbytes, be16_length]
    omega
  simp only [List.append_assoc] at hbody
  have hlength := drop_add_of_append (n := 2) hbody rfl
  have hregion := drop_add_of_append (n := 2) hlength rfl
  have hloop := drop_add_of_append hregion rfl
  have hinfoLength : len12 sec 10 = BitVec.ofNat 12 (descRegion info).length := len12_of_drop hlength
  have hlist := descList_region_of_drop (cfg := cfg) (ns := .si) hinfo hregion hmin
  rw [parsePmt, hinfoLength, toNat_length_of_regionFits hinfo, hlist, pmtStreams_of_drop hstreams hcovered hloop,
    hheader, pid13_of_drop hbody]
  exact if_neg (by omega)

/-- Settles O50: the section parses to the record of its header, its program info and its streams, which is no
duplicate. -/
theorem pmtRoundTrip : Obligations.PmtRoundTrip := by
  intro s h pcrPid info streams crc hcrc hnew hinfo hstreams
  have hparse := parsePmt_of_pmtSection hcrc hinfo hstreams (rfl : pmtSection h pcrPid info streams crc = _)
  exact (exec_secPmt _ s).trans (commitUnless_new hparse (sameVersion_eq_false hnew))

end Sys2Proof.Machine
end

section
/-! A batch of one packet with a whole PAT section (43_table_decoders.md R255): the engine while the host waits, the
reassembler's steps on one context, and the run of the batch. -/

namespace Sys2Proof.Machine

/-! ## The engine while the host waits -/

/-- With nothing due from the host until the batch ends or notifies, a step in the batch is the engine's. -/
theorem step_engine_waiting {s : State} (hp : s.phase = .inBatch) (hh : ∀ x ∈ s.host, x.wait = none) :
    step s = engineStep s := by
  have hnotDue : s.takeAction = none := by
    unfold State.takeAction
    split
    · rfl
    next x rest hs =>
      have hwait : x.wait = none := hh x (hs ▸ List.mem_cons_self ..)
      simp [HostItem.due, hp, hwait]
  have hticked : s.ticked = s := by
    have htick : tickHost s.host = s.host := by
      cases hs : s.host with
      | nil => rfl
      | cons x rest =>
        obtain ⟨a, w⟩ := x
        obtain rfl : w = none := hh ⟨a, w⟩ (hs ▸ List.mem_cons_self ..)
        rfl
    rw [State.ticked, htick]
  rw [step_engine hp hnotDue, hticked]

/-! ## One context in a batch (42_section_reassembly_crc.md) -/

/-- Two writes to one context are the last of them. -/
theorem setCtx_setCtx (s : State) (pid : Pid) (c d : Ctx) (hwf : Memory.wf s = true) :
    (s.setCtx pid c).setCtx pid d = s.setCtx pid d := by
  obtain ⟨hctx, -⟩ := (Memory.wf_iff s).1 hwf
  have hset : SMap.set {} pid.toNat d (SMap.set {} pid.toNat c s.ctx) = SMap.set {} pid.toNat d s.ctx := by
    refine SMap.ext {} _ _ (SMap.wf_set _ _ _ _ (SMap.wf_set _ _ _ _ hctx)) (SMap.wf_set _ _ _ _ hctx) fun k => ?_
    by_cases hk : k = pid.toNat
    · rw [hk, SMap.get_set_same _ _ _ _ (SMap.wf_set _ _ _ _ hctx), SMap.get_set_same _ _ _ _ hctx]
    · rw [SMap.get_set_of_ne _ _ _ hk, SMap.get_set_of_ne _ _ _ hk, SMap.get_set_of_ne _ _ _ hk]
  rw [State.setCtx, State.setCtx, State.setCtx, hset]

/-- The state `b` with the context of a PID and the engine's work set. -/
def State.during (b : State) (pid : Pid) (c : Ctx) (w : List Work) : State := { b.setCtx pid c with work := w }

section
variable {b : State} {pid : Pid} (c : Ctx) (w : List Work) (hwf : Memory.wf b = true)
include hwf

theorem ctxOf_during : (b.during pid c w).ctxOf pid = c := ctxOf_setCtx_same b pid c hwf

theorem setCtx_push_during (d : Ctx) (front : List Work) :
    ((b.during pid c w).setCtx pid d).push front = b.during pid d (front ++ w) := by
  have hset := congrArg State.ctx (setCtx_setCtx b pid c d hwf)
  simp only [State.during, State.push, State.setCtx] at hset ⊢
  rw [hset]

end

/-- The engine runs the unit at the head of its work. -/
theorem step_unit_waiting {s : State} {w : List Work} {u : Code} {i : Instr} (hp : s.phase = .inBatch)
    (hh : ∀ x ∈ s.host, x.wait = none) (hw : s.work = .unit u :: w) (hd : decode s.cfg u = .ok i) :
    step s = exec i { s with work := w } := by
  rw [step_engine_waiting hp hh, engineStep, todo_unit hw hd]

section
variable {b : State} {pid : Pid} {c : Ctx} {w : List Work} (hp : b.phase = .inBatch)
  (hh : ∀ x ∈ b.host, x.wait = none)
include hp hh

theorem step_unit_during {u : Code} {i : Instr} (hd : decode b.cfg u = .ok i) :
    step (b.during pid c (.unit u :: w)) = exec i (b.during pid c w) :=
  step_unit_waiting (s := b.during pid c (.unit u :: w)) hp hh rfl hd

/-- The first packet of a PID passes the continuity check (R211). -/
theorem step_first_payload (payload : Bytes) (hctx : b.ctxOf pid = {}) :
    step { b with work := .unit (.payloadPacket pid payload) :: w } = .next
      (b.during pid ⟨.idle, [], true, b.hdr.cc⟩ (.unit (.payload b.hdr.pusi pid payload) :: w)) := by
  have hctx : State.ctxOf { b with work := w } pid = {} := hctx
  have hexec := exec_secCc_tracked (s := { b with work := w }) (pid := pid) payload
    (by simp [hctx, Ctx.duplicate]) (by simp [hctx, Ctx.jump])
  rw [hctx] at hexec
  exact (step_unit_waiting (s := { b with work := _ :: w }) hp hh rfl rfl).trans hexec

theorem step_crc {sec : Bytes} (hwhole : wholeSection sec = true) (hstuff : byteAt sec 0 ∉ b.cfg.stuffingIds)
    (hcrc : crcValid b.cfg sec = true) :
    step (b.during pid c (.unit (.extracted pid sec) :: w)) = .next
      (b.during pid c (.unit (.validated pid sec) :: w)) := by
  have hd : decode b.cfg (.extracted pid sec) = .ok (.secCrc pid sec) :=
    decodeExtracted_of_wf (by simp [Instr.wf, hwhole, hstuff])
  exact (step_unit_during hp hh hd).trans (exec_secCrc_valid (s := b.during pid c w) hstuff hcrc)

theorem step_dispatch (sec : Bytes) :
    step (b.during pid c (.unit (.validated pid sec) :: w)) = .next
      (b.during pid c (.unit (.table pid (roles b pid) sec) :: w)) :=
  step_unit_during (i := .secDispatch pid sec) hp hh rfl

variable (hwf : Memory.wf b = true)
include hwf

/-- A payload whose pointer is 0 starts a section at once (R212). -/
theorem step_start {new : Bytes} (hidle : c.state = .idle) (hne : new ≠ []) :
    step (b.during pid c (.unit (.payload true pid (0#8 :: new)) :: w)) = .next
      (b.during pid (c.filled new) (.unit (.drain pid) :: w)) := by
  have hctx : (b.during pid c w).ctxOf pid = c := ctxOf_during c w hwf
  have hexec := exec_secStart_idle (s := b.during pid c w) 0#8 new (by rw [hctx, hidle])
  rw [BitVec.toNat_ofNat, Nat.zero_mod, List.drop_zero, restart_of_ne_nil _ _ hne, hctx,
    setCtx_push_during c w hwf] at hexec
  exact (step_unit_during hp hh rfl).trans hexec

/-- A whole section in front of a buffer is taken out of it (R213, R214). -/
theorem step_drain_section {sec r : Bytes} (hbuf : c.buf = sec ++ r) (hwhole : wholeSection sec = true)
    (hpad : byteAt sec 0 ≠ 0xFF#8) :
    step (b.during pid c (.unit (.drain pid) :: w)) = .next
      (b.during pid { c with buf := r } (.unit (.extracted pid sec) :: .unit (.drain pid) :: w)) := by
  have hctx : (b.during pid c w).ctxOf pid = c := ctxOf_during c w hwf
  obtain ⟨hlen, htotal⟩ : 3 ≤ sec.length ∧ sec.length = sectionTotal sec := by
    simpa [wholeSection, sectionTotal] using hwhole
  have hfront : sectionTotal c.buf = sec.length := by rw [hbuf, sectionTotal_append r hlen, htotal]
  have hsize : c.buf.length = sec.length + r.length := by rw [hbuf, List.length_append]
  have hwait : ¬ incomplete c.buf := by
    rintro ⟨-, -, hshort⟩
    omega
  have hpad : byteAt c.buf 0 ≠ 0xFF#8 := by rwa [hbuf, byteAt_append_left r (by omega)]
  have hne : c.buf ≠ [] := List.ne_nil_of_length_pos (by omega)
  have hexec := exec_secDrain_section (s := b.during pid c w) (pid := pid)
  rw [hctx, hfront, setCtx_push_during c w hwf] at hexec
  have hrun := (step_unit_during (u := .drain pid) hp hh rfl).trans (hexec hne hpad hwait)
  rwa [hbuf, List.take_left, List.drop_left] at hrun

/-- A turn that finds padding in front hands the buffer to SEC.STUFF (R214). -/
theorem step_drain_padding (hne : c.buf ≠ []) (hpad : byteAt c.buf 0 = 0xFF#8) :
    step (b.during pid c (.unit (.drain pid) :: w)) = .next (b.during pid c (.unit (.table pid [] c.buf) :: w)) := by
  have hctx : (b.during pid c w).ctxOf pid = c := ctxOf_during c w hwf
  have hexec := exec_secDrain_padding (s := b.during pid c w) (pid := pid)
  rw [hctx] at hexec
  exact (step_unit_during hp hh rfl).trans (hexec hne hpad)

/-- The padding is dropped and the context goes `IDLE` (R220). -/
theorem step_padding {rs : List Role} {pad : Bytes} (hne : pad ≠ []) (hpad : byteAt pad 0 = 0xFF#8) :
    step (b.during pid c (.unit (.table pid rs pad) :: w)) = .next (b.during pid c.idled w) := by
  obtain ⟨tid, tail, rfl⟩ := List.exists_cons_of_ne_nil hne
  have hd : decode b.cfg (.table pid rs (tid :: tail)) = .ok (.secStuff pid) := if_pos hpad
  have hexec : exec (.secStuff pid) (b.during pid c w) =
      .next (((b.during pid c w).setCtx pid ((b.during pid c w).ctxOf pid).idled).push []) := rfl
  rw [ctxOf_during c w hwf, setCtx_push_during c w hwf] at hexec
  exact (step_unit_during hp hh hd).trans hexec

end

/-! ## The section is decoded (R255) -/

/-- The first role of the PID of the PAT decodes a section that it accepts (assumption log 16). -/
theorem decode_table_pat {b : State} {sec : Bytes} (hacc : accepted b.cfg .pat (byteAt sec 0) = true)
    (hpad : byteAt sec 0 ≠ 0xFF#8) (hstuff : byteAt sec 0 ∉ b.cfg.stuffingIds) (hne : sec ≠ []) :
    decode b.cfg (.table b.cfg.pidPat (roles b b.cfg.pidPat) sec) = .ok (.secPat sec) := by
  have hrole : hasRole b b.cfg.pidPat .pat = true := by simp [hasRole]
  have hfirst : (roles b b.cfg.pidPat).find? (accepted b.cfg · (byteAt sec 0)) = some .pat := by
    rw [roles, allRoles, List.filter_cons_of_pos hrole]
    exact List.find?_cons_of_pos hacc
  rw [decode_table_plain hpad hstuff hne, hfirst]
  rfl

/-- The record `r` is committed and its notification stands (60_exceptions.md R380). -/
def State.patCommitted (b : State) (r : Pat) : State :=
  { b with pat := r, pending := .pat, phase := .inNotify, out := b.out ++ [.notify .pat] }

section
variable {b : State} {c : Ctx} {w : List Work} {sec : Bytes} {r : Pat}

theorem exec_secPat_first (hcb : b.cbEnabled .pat = true) (hunheld : b.pat.valid = false)
    (hparse : parsePat b.cfg sec = some r) : exec (.secPat sec) b = .next (b.patCommitted r) := by
  have hnotify : State.notify { b with pat := r } .pat = b.patCommitted r := if_pos hcb
  rw [exec_secPat, commitUnless_new hparse (sameVersion_eq_false (.inl hunheld)), hnotify]

/-- From a whole PAT section in front of the buffer to its notification. -/
theorem runSteps_pat_section {pad : Bytes} (n : Nat) (hp : b.phase = .inBatch) (hh : ∀ x ∈ b.host, x.wait = none)
    (hwf : Memory.wf b = true) (hcb : b.cbEnabled .pat = true) (hunheld : b.pat.valid = false)
    (hacc : accepted b.cfg .pat (byteAt sec 0) = true) (hpad : byteAt sec 0 ≠ 0xFF#8)
    (hstuff : byteAt sec 0 ∉ b.cfg.stuffingIds) (hwhole : wholeSection sec = true)
    (hcrc : crcValid b.cfg sec = true) (hparse : parsePat b.cfg sec = some r) (hbuf : c.buf = sec ++ pad) :
    runSteps (n + 4) (b.during b.cfg.pidPat c (.unit (.drain b.cfg.pidPat) :: w)) =
      runSteps n ((b.patCommitted r).during b.cfg.pidPat { c with buf := pad } (.unit (.drain b.cfg.pidPat) :: w)) := by
  have hd := decode_table_pat hacc hpad hstuff (Laws.wholeSection_ne_nil sec hwhole)
  have hexec := exec_secPat_first (b := b.during b.cfg.pidPat { c with buf := pad } (.unit (.drain b.cfg.pidPat) :: w))
    hcb hunheld hparse
  calc _
    _ = runSteps (n + 3) _ := runSteps_succ _ (step_drain_section hp hh hwf hbuf hwhole hpad)
    _ = runSteps (n + 2) _ := runSteps_succ _ (step_crc hp hh hwhole hstuff hcrc)
    _ = runSteps (n + 1) _ := runSteps_succ _ (step_dispatch hp hh sec)
    _ = runSteps n _ := runSteps_succ _ ((step_unit_during hp hh hd).trans hexec)

end

/-! ## From the batch to the section, and from the notification to the end of the batch -/

/-- The payload of a packet without an adaptation field is all that follows its header. -/
theorem payloadOf_latch_one (h : PktHead) {rest : Bytes} (hr : rest.length = 184) :
    payloadOf (latch 1#2 h rest) rest = rest := by
  rw [payloadOf_latch 0 hr, if_pos (by decide), latch_without_af (by decide)]
  exact drop_packetBytes 0 1#2 h rest

/-- A packet with a payload on a table PID goes to the reassembler. -/
theorem exec_packetInstr_payload {s : State} {h : PktHead} {rest : Bytes} (hpcr : s.bind.pcr.is h.pid = false)
    (hebu : s.bind.ebu.is h.pid = false) (htable : isTablePid s h.pid = true) (hr : rest.length = 184) :
    exec (packetInstr 1#2 h rest) s =
      .next ((s.takePacket 1#2 h rest).push [.unit (.payloadPacket h.pid rest)]) := by
  obtain ⟨hyes, -⟩ | ⟨-, hyes, -⟩ | ⟨-, -, -, -, hw⟩ | ⟨-, -, hno | ⟨-, hno⟩, -⟩ :=
    routeWork_cases (s.takePacket 1#2 h rest) (packetBytes s.cfg.syncByte 1#2 h rest)
      (payloadOf (latch 1#2 h rest) rest)
  · cases hpcr.symm.trans hyes
  · cases hebu.symm.trans hyes
  · rw [exec_packetInstr, if_neg (by decide), hw, payloadOf_latch_one h hr]
    rfl
  · exact absurd (show (1#2).getLsbD 0 = false from hno) (by decide)
  · cases htable.symm.trans hno

/-- The state behind the header of the only packet of a batch, with more to come from the host. -/
def State.packetTaken (s : State) (h : PktHead) (rest : Bytes) (host : List HostItem) : State :=
  State.takePacket { s.inBatchOf (packetBytes s.cfg.syncByte 1#2 h rest) with host := host } 1#2 h rest

/-- From the first payload of an unused context, a section at pointer 0, to the drain of its buffer. -/
theorem runSteps_first_payload {b : State} {pid : Pid} {w : List Work} {new : Bytes} (n : Nat) (hp : b.phase = .inBatch)
    (hh : ∀ x ∈ b.host, x.wait = none) (hwf : Memory.wf b = true) (hpusi : b.hdr.pusi = true)
    (hctx : b.ctxOf pid = {}) (hne : new ≠ []) :
    runSteps (n + 2) { b with work := .unit (.payloadPacket pid (0#8 :: new)) :: w } =
      runSteps n (b.during pid ⟨.accumulating, new, true, b.hdr.cc⟩ (.unit (.drain pid) :: w)) := by
  have hpayload := step_first_payload (w := w) hp hh (0#8 :: new) hctx
  rw [hpusi] at hpayload
  calc _
    _ = runSteps (n + 1) _ := runSteps_succ _ hpayload
    _ = runSteps n _ := runSteps_succ _ (step_start hp hh hwf rfl hne)

/-- From `PROCESS` to the section in the buffer of an unused context. -/
theorem runSteps_section_start {s : State} {h : PktHead} {new : Bytes} {host : List HostItem} (n : Nat)
    (hready : s.phase = .ready) (hcarry : s.carry = []) (hpusi : h.pusi = true) (hpcr : s.bind.pcr.is h.pid = false)
    (hebu : s.bind.ebu.is h.pid = false) (htable : isTablePid s h.pid = true) (hctx : s.ctxOf h.pid = {})
    (hwf : Memory.wf s = true) (hlen : new.length = 183)
    (hhost : s.host = ⟨.batch (packetBytes s.cfg.syncByte 1#2 h (0#8 :: new)), none⟩ :: host)
    (hwait : ∀ x ∈ host, x.wait = none) :
    runSteps (n + 4) s = runSteps n ((s.packetTaken h (0#8 :: new) host).during h.pid ⟨.accumulating, new, true, h.cc⟩
      [.unit (.drain h.pid), .endPacket]) := by
  have hfits : restFits (0#8 :: new) = true := by simp [restFits, hlen]
  have hbatch : step s = .next
      { s.inBatchOf (packetBytes s.cfg.syncByte 1#2 h (0#8 :: new)) with host := host } := by
    rw [step_host hhost (.inl (by simp [hready]))]
    exact (processStarts { s with host := host } _ hready).trans (by simp [hcarry, State.inBatchOf])
  have hpacket : step { s.inBatchOf (packetBytes s.cfg.syncByte 1#2 h (0#8 :: new)) with host := host } = .next
      { s.packetTaken h (0#8 :: new) host with work := [.unit (.payloadPacket h.pid (0#8 :: new)), .endPacket] } := by
    obtain ⟨hsize, -⟩ := Laws.packetBytes_fits s.cfg 1#2 h _ hfits
    have hd := decodePacket_packetBytes s.cfg 1#2 h hfits
    rw [← List.take_of_length_le hsize.le] at hd
    rw [step_engine_waiting rfl hwait, engineStep, todo_packet rfl hd]
    exact exec_packetInstr_payload hpcr hebu htable (by simp [hlen])
  calc _
    _ = runSteps (n + 3) _ := runSteps_succ _ hbatch
    _ = runSteps (n + 2) _ := runSteps_succ _ hpacket
    _ = runSteps n _ := runSteps_first_payload (b := s.packetTaken h (0#8 :: new) host) n rfl hwait hwf hpusi hctx
      (List.ne_nil_of_length_pos (by omega))

/-- The batch after the acknowledgement of the PAT's notification. -/
def State.patAcknowledged (b : State) (r : Pat) : State := { b.patCommitted r with phase := .inBatch, host := [] }

/-- From the notification, over its acknowledgement and the padding behind the section, to the end of the batch. -/
theorem runSteps_pat_rest {b : State} {pid : Pid} {c : Ctx} (r : Pat) (hh : b.host = [⟨.ack, none⟩])
    (hwf : Memory.wf b = true) (hne : c.buf ≠ []) (hpad : byteAt c.buf 0 = 0xFF#8)
    (hend : b.stream.length ≤ b.pc + packetLength) :
    runSteps 5 ((b.patCommitted r).during pid c [.unit (.drain pid), .endPacket]) =
      some (State.endBatch { (b.patAcknowledged r).during pid c.idled [] with pc := b.pc + packetLength }) := by
  have hack : step ((b.patCommitted r).during pid c [.unit (.drain pid), .endPacket]) =
      .next ((b.patAcknowledged r).during pid c [.unit (.drain pid), .endPacket]) :=
    step_host (s := (b.patCommitted r).during pid c _) hh (.inl Phase.noConfusion)
  have hdrain := step_drain_padding (b := b.patAcknowledged r) (pid := pid) (w := [.endPacket]) rfl
    (List.forall_mem_nil _) hwf hne hpad
  have hpadding := step_padding (b := b.patAcknowledged r) (pid := pid) (c := c) (w := [.endPacket]) (rs := []) rfl
    (List.forall_mem_nil _) hwf hne hpad
  have hpacketEnd := step_endPacket (s := (b.patAcknowledged r).during pid c.idled [.endPacket]) rfl rfl rfl
  have hbatchEnd := step_batch_end
    (s := { (b.patAcknowledged r).during pid c.idled [] with pc := b.pc + packetLength }) rfl rfl rfl hend
  calc _
    _ = runSteps 4 _ := runSteps_succ _ hack
    _ = runSteps 3 _ := runSteps_succ _ hdrain
    _ = runSteps 2 _ := runSteps_succ _ hpadding
    _ = runSteps 1 _ := runSteps_succ _ hpacketEnd
    _ = runSteps 0 _ := runSteps_succ _ hbatchEnd

/-- Settles O11: the batch is taken and its section starts, the section is decoded and notified, and after the
acknowledgement the padding ends the packet. -/
theorem patPacketBatch : Obligations.PatPacketBatch := by
  intro s h sec pad r hready hcarry _ hpusi hpid hpcr hebu hctx hwf hcb hunheld hacc hff hstuff hwhole hlen hcrc hparse
    hpad hhost
  have htable : isTablePid s h.pid = true := isTablePid_iff.2 (.inl (by simp [fixedTablePids, hpid]))
  have hstuff : byteAt sec 0 ∉ s.cfg.stuffingIds := by simpa using hstuff
  have hpadLen : pad.length = 183 - sec.length := by rw [hpad, List.length_replicate]
  have hpadNe : pad ≠ [] := List.ne_nil_of_length_pos (by omega)
  have hpadFirst : byteAt pad 0 = 0xFF#8 := by
    rw [hpad, byteAt, List.getD_replicate (h := by omega)]
  have hnew : (sec ++ pad).length = 183 := by
    rw [List.length_append]
    omega
  obtain ⟨hsize, -⟩ := Laws.packetBytes_fits s.cfg 1#2 h (0#8 :: (sec ++ pad)) (by simpa [restFits] using hnew)
  have hstart := runSteps_section_start 9 hready hcarry hpusi hpcr hebu htable hctx hwf hnew hhost (by simp)
  rw [hpid] at hstart
  have hsection := runSteps_pat_section (b := s.packetTaken h (0#8 :: (sec ++ pad)) [⟨.ack, none⟩])
    (c := ⟨.accumulating, sec ++ pad, true, h.cc⟩) (w := [.endPacket]) 5 rfl (by simp [State.packetTaken]) hwf hcb
    hunheld hacc hff hstuff hwhole hcrc hparse rfl
  have hrest := runSteps_pat_rest (b := s.packetTaken h (0#8 :: (sec ++ pad)) [⟨.ack, none⟩]) (pid := s.cfg.pidPat)
    (c := ⟨.accumulating, pad, true, h.cc⟩) r rfl hwf hpadNe hpadFirst hsize.le
  refine ⟨_, hstart.trans (hsection.trans hrest), ?_, ?_, ?_, ?_, ?_, ?_, ?ctx, ?_⟩
  case ctx => exact hpid ▸ ctxOf_during _ [] hwf
  all_goals simp [State.during, State.setCtx, State.patAcknowledged, State.patCommitted, State.packetTaken,
    State.inBatchOf, State.batchOk]

end Sys2Proof.Machine
end

section
/-! Proofs of the family 44_descriptors.md. First the walk of a region (R300): what a descriptor instruction appends, and
a region run one instruction a step. -/

namespace Sys2Proof.Machine

/-! ## What a descriptor instruction appends (R300, R301) -/

/-- The tag of a kind in the tag maps of R114 and R115; a generic descriptor has the tag `tag` of its own. -/
def kindTag (m : DescTags) (tag : Byte) : DescKind → Byte
  | .generic => tag
  | .ca => m.ca
  | .iso639 => m.iso639
  | .carouselId => m.carouselId
  | .networkName => m.networkName
  | .serviceList => m.serviceList
  | .service => m.service
  | .linkage => m.linkage
  | .shortEvent => m.shortEvent
  | .extEvent => m.extEvent
  | .component => m.component
  | .streamId => m.streamId
  | .content => m.content
  | .parental => m.parental
  | .teletext => m.teletext
  | .subtitling => m.subtitling
  | .dataBcastId => m.dataBcastId
  | .appSignalling => m.appSignalling
  | .application => m.application
  | .appName => m.appName
  | .transportProtocol => m.transportProtocol

theorem kindTag_of_mem_tagRows (m : DescTags) (ns : Namespace) (tag : Byte) :
    ∀ e ∈ tagRows m ns, kindTag m tag e.2 = e.1 := by
  cases ns <;> simp [tagRows, kindTag]

theorem kindTag_kindOf (cfg : Config) (ns : Namespace) (tag : Byte) :
    kindTag cfg.descTags tag (kindOf cfg ns tag) = tag := by
  obtain hrow | ⟨hgeneric, -⟩ := kindOf_cases cfg ns tag
  · exact kindTag_of_mem_tagRows cfg.descTags ns tag _ hrow
  · rw [hgeneric, kindTag]

/-- The instruction of a descriptor writes the tag of its kind, which is the descriptor's own. -/
theorem exec_descInstr (s : State) (ns : Namespace) (tag : Byte) (body : Bytes) :
    exec (descInstr s.cfg ns tag body) s =
      .next { s with dlist := s.dlist ++ [mkDescriptor tag body (infoOf s.cfg ns tag body)] } := by
  have htag := kindTag_kindOf s.cfg ns tag
  unfold descInstr infoOf
  cases hk : kindOf s.cfg ns tag
  all_goals
    rw [hk] at htag
    conv_rhs => rw [← htag]
    rfl

theorem kindOfInfo_infoOf (cfg : Config) (ns : Namespace) (tag : Byte) (body : Bytes) :
    kindOfInfo (infoOf cfg ns tag body) = kindOf cfg ns tag := by
  unfold infoOf
  cases kindOf cfg ns tag <;> rfl

/-! ## A region run one instruction a step (R300) -/

section
variable {s : State} {ns : Namespace} {r : Bytes} {rest : List Work} (hp : s.phase = .inBatch) (hh : s.host = [])
  (hw : s.work = .region ns r :: rest)
include hp hh hw

theorem step_region_end (hsplit : splitDescriptor r = none) : step s = .next { s with work := rest } := by
  have hnone : nextDescriptor s.cfg ns r = none := by rw [nextDescriptor, hsplit, Option.map_none]
  rw [step_engine_waiting hp (hh ▸ List.forall_mem_nil _), engineStep, todo_region_end hw hnone]

theorem step_region {tag : Byte} {body r' : Bytes} (hsplit : splitDescriptor r = some (tag, body, r')) :
    step s = .next { s with work := .region ns r' :: rest,
                            dlist := s.dlist ++ [mkDescriptor tag body (infoOf s.cfg ns tag body)] } := by
  have hnext : nextDescriptor s.cfg ns r = some (descInstr s.cfg ns tag body, r') := by
    rw [nextDescriptor, hsplit, Option.map_some]
  rw [step_engine_waiting hp (hh ▸ List.forall_mem_nil _), engineStep, todo_region hw hnext]
  exact exec_descInstr { s with work := .region ns r' :: rest } ns tag body

end

/-- Each descriptor of the list takes a step, and the end of the region one more. -/
theorem runSteps_region {s : State} {ns : Namespace} {r : Bytes} {rest : List Work} {l : List Descriptor}
    (hl : descList s.cfg ns r = l) (hp : s.phase = .inBatch) (hh : s.host = []) (hw : s.work = .region ns r :: rest) :
    runSteps (l.length + 1) s = some { s with work := rest, dlist := s.dlist ++ l } := by
  induction l generalizing s r with
  | nil =>
    cases hsplit : splitDescriptor r with
    | none =>
      rw [runSteps_succ _ (step_region_end hp hh hw hsplit), List.append_nil]
      rfl
    | some d =>
      rw [descList_some _ _ _ hsplit] at hl
      cases hl
  | cons d l ih =>
    cases hsplit : splitDescriptor r with
    | none =>
      rw [descList_none _ _ _ hsplit] at hl
      cases hl
    | some split =>
      obtain ⟨tag, body, r'⟩ := split
      rw [descList_some _ _ _ hsplit] at hl
      obtain ⟨rfl, hrest⟩ := List.cons.inj hl
      rw [List.append_cons, List.length_cons, runSteps_succ _ (step_region hp hh hw hsplit)]
      exact ih hrest hp hh rfl

/-- Settles O12: a run of the region over the list that the table decoders build of it. -/
theorem regionRunIsDescList : Obligations.RegionRunIsDescList :=
  fun _ _ _ _ hp hh hw => runSteps_region rfl hp hh hw

/-- Settles O4: the walk of a written region, which the round trip of the PMT rests on too. -/
theorem descriptorRegionRoundTrip : Obligations.DescriptorRegionRoundTrip :=
  fun cfg ns _ hbodies => descList_descRegion cfg ns hbodies

/-! ## The envelope of a descriptor (R302) -/

/-- A length byte, read as a scalar, is the length. -/
theorem numOf_length {x : Bytes} (h : x.length < 256) :
    numOf (BitVec.ofNat 8 x.length) = .num (BitVec.ofNat 64 x.length) := by
  rw [numOf, BitVec.setWidth_ofNat_of_le_of_lt (by decide) h]

/-- Below the envelope the fields are those of the kind. -/
theorem descField_of_lt {d : Descriptor} {fid : Byte} (h : fid.toNat < 0xF0) (i : Nat) :
    descField d fid i = infoField d.info fid.toNat i := by
  unfold descField
  split
  case h_5 => rfl
  all_goals omega

/-- Settles O54: the instruction appends the descriptor of its tag and body, whose envelope is read off it. -/
theorem descriptorAppended : Obligations.DescriptorAppended := by
  intro s ns tag body hlen
  refine ⟨_, exec_descInstr s ns tag body, rfl, rfl, ?_, rfl, congrArg some (numOf_length hlen), ?_, rfl⟩
  · exact (BitVec.toNat_ofNat ..).trans (Nat.mod_eq_of_lt hlen)
  · exact congrArg (fun k => some (numOf (kindNumber k))) (kindOfInfo_infoOf s.cfg ns tag body)

end Sys2Proof.Machine
end

section
/-! The kinds of 44_descriptors.md whose fields stand at fixed places or are one loop of fixed-size elements. -/

namespace Sys2Proof.Machine

/-! ## Fields at fixed places (R302) -/

theorem scalarAt_need {w : Nat} (n : Nat) (b : Bytes) (v : BitVec w) :
    scalarAt 0 (need n b v) = if n ≤ b.length then some (numOf v) else none := by
  rw [scalarAt, if_pos rfl, need, apply_ite (Option.map numOf)]
  rfl

theorem stringAt_need (n : Nat) (b v : Bytes) :
    stringAt 0 (need n b v) = if n ≤ b.length then some (.str v) else none := by
  rw [stringAt, if_pos rfl, need, apply_ite (Option.map FieldVal.str)]
  rfl

/-- Settles O55: each field is the scalar or the byte string that its layout needs a number of bytes for. -/
theorem descriptorFixedFields : Obligations.DescriptorFixedFields := by
  intro s b
  refine ⟨⟨_, rfl, ?ca⟩, ⟨_, rfl, ?carouselId⟩, ⟨_, rfl, ?linkage⟩, ⟨_, rfl, ?component⟩, ⟨_, rfl, ?streamId⟩,
    ⟨_, rfl, ?dataBcastId⟩, ⟨_, rfl, ?transportProtocol⟩⟩
  case ca => exact ⟨scalarAt_need 2 b _, scalarAt_need 4 b _, stringAt_need 4 b _⟩
  case carouselId => exact ⟨scalarAt_need 4 b _, scalarAt_need 5 b _, stringAt_need 5 b _⟩
  case linkage =>
    exact ⟨scalarAt_need 2 b _, scalarAt_need 4 b _, scalarAt_need 6 b _, scalarAt_need 7 b _, stringAt_need 7 b _⟩
  case component =>
    exact ⟨scalarAt_need 1 b _, scalarAt_need 1 b _, scalarAt_need 2 b _, scalarAt_need 3 b _, scalarAt_need 6 b _,
      stringAt_need 6 b _⟩
  case streamId => exact scalarAt_need 1 b _
  case dataBcastId => exact ⟨scalarAt_need 2 b _, stringAt_need 2 b _⟩
  case transportProtocol => exact ⟨scalarAt_need 2 b _, scalarAt_need 3 b _, stringAt_need 3 b _⟩

/-! ## One loop of fixed-size elements (R302) -/

theorem countAt_loopOf {α : Type} (b : Bytes) (e : Nat) (f : Nat → α) :
    countAt 0 (loopOf b 0 e f).length = some (.num (BitVec.ofNat 64 (b.length / e))) := by
  rw [countAt, if_pos rfl, countOf, loopOf, List.length_map, List.length_range, Nat.sub_zero]

theorem getElem?_loopOf {α : Type} (b : Bytes) (e : Nat) (f : Nat → α) (i : Nat) :
    (loopOf b 0 e f)[i]? = if i < b.length / e then some (f (e * i)) else none := by
  rw [loopOf, List.getElem?_map, Nat.sub_zero]
  split
  case isTrue hi => rw [List.getElem?_range hi, Option.map_some, Nat.zero_add]
  case isFalse hi => rw [List.getElem?_eq_none (by rwa [List.length_range, ← Nat.not_lt]), Option.map_none]

theorem elemAt_loopOf {α : Type} {w : Nat} (b : Bytes) (e : Nat) (f : Nat → α) (i : Nat) (g : α → BitVec w) :
    elemAt (loopOf b 0 e f) i g = if i < b.length / e then some (numOf (g (f (e * i)))) else none := by
  rw [elemAt, getElem?_loopOf, apply_ite (Option.map fun x => numOf (g x))]
  rfl

/-- Settles O56: each kind is a loop, whose count and elements are those of `loopOf`. -/
theorem descriptorLoops : Obligations.DescriptorLoops := by
  intro s b i
  refine ⟨⟨_, rfl, ?iso639⟩, ⟨_, rfl, ?serviceList⟩, ⟨_, rfl, ?content⟩, ⟨_, rfl, ?parental⟩, ⟨_, rfl, ?teletext⟩,
    ⟨_, rfl, ?subtitling⟩, ⟨_, rfl, ?appSignalling⟩⟩
  case iso639 => exact ⟨countAt_loopOf b 4 _, elemAt_loopOf b 4 _ i _, elemAt_loopOf b 4 _ i _⟩
  case serviceList => exact ⟨countAt_loopOf b 3 _, elemAt_loopOf b 3 _ i _, elemAt_loopOf b 3 _ i _⟩
  case content =>
    exact ⟨countAt_loopOf b 2 _, elemAt_loopOf b 2 _ i _, elemAt_loopOf b 2 _ i _, elemAt_loopOf b 2 _ i _⟩
  case parental => exact ⟨countAt_loopOf b 4 _, elemAt_loopOf b 4 _ i _, elemAt_loopOf b 4 _ i _⟩
  case teletext =>
    exact ⟨countAt_loopOf b 5 _, elemAt_loopOf b 5 _ i _, elemAt_loopOf b 5 _ i _, elemAt_loopOf b 5 _ i _,
      elemAt_loopOf b 5 _ i _⟩
  case subtitling =>
    exact ⟨countAt_loopOf b 8 _, elemAt_loopOf b 8 _ i _, elemAt_loopOf b 8 _ i _, elemAt_loopOf b 8 _ i _,
      elemAt_loopOf b 8 _ i _⟩
  case appSignalling => exact ⟨countAt_loopOf b 3 _, elemAt_loopOf b 3 _ i _, elemAt_loopOf b 3 _ i _⟩

end Sys2Proof.Machine
end

section
/-! The kinds of 44_descriptors.md with byte strings behind a length of their own: their bodies, written from the parts,
read back to them. -/

namespace Sys2Proof.Machine

/-! ## Fields by what the body holds from an offset on -/

/-- The 3 bytes of a 24-bit value, most significant first. -/
def be24 (v : BitVec 24) : Bytes := [v.extractLsb' 16 8, v.extractLsb' 8 8, v.extractLsb' 0 8]

/-- A byte string behind its length byte. -/
def withLength (x : Bytes) : Bytes := BitVec.ofNat 8 x.length :: x

theorem length_withLength (x : Bytes) : (withLength x).length = 1 + x.length := Nat.add_comm ..

section
variable {b rest : Bytes} {o : Nat}

theorem u24_of_drop {v : BitVec 24} (h : b.drop o = be24 v ++ rest) : u24 b o = v := by
  have hlow : b.drop (o + 2) = v.extractLsb' 0 8 :: rest :=
    drop_add_of_append (a := [v.extractLsb' 16 8, v.extractLsb' 8 8]) h rfl
  have hhigh : u16 b o = v.extractLsb' 8 16 := by
    refine u16_of_drop (rest := v.extractLsb' 0 8 :: rest) ?_
    rw [h, be16, extractLsb'_extractLsb' v (by decide), extractLsb'_extractLsb' v (by decide)]
    rfl
  rw [u24, hhigh, byteAt_of_drop hlow]
  exact (BitVec.extractLsb'_append_extractLsb'_eq_extractLsb' rfl).trans BitVec.extractLsb'_eq_self

/-- What stands at an offset fits the body. -/
theorem add_length_le_of_drop {x : Bytes} (h : b.drop o = x ++ rest) (hx : x ≠ []) : o + x.length ≤ b.length := by
  have hlen := congrArg List.length h
  rw [List.length_drop, List.length_append] at hlen
  have hpos := List.length_pos_iff.2 hx
  omega

theorem slice_of_drop {x : Bytes} (h : b.drop o = x ++ rest) : slice b o (o + x.length) = x := by
  rw [slice, List.drop_take, h, Nat.add_sub_cancel_left, List.take_left]

end

theorem withLength_ne_nil (x : Bytes) : withLength x ≠ [] := List.cons_ne_nil _ _

theorem toNat_lengthByte {x : Bytes} (hx : x.length < 256) : (BitVec.ofNat 8 x.length).toNat = x.length := by
  rw [BitVec.toNat_ofNat, Nat.mod_eq_of_lt hx]

theorem need_of_le {α : Type} {n : Nat} {b : Bytes} (h : n ≤ b.length) (v : α) : need n b v = some v := if_pos h

/-! ## Two strings in a row (R312, R314, R315) -/

/-- What a body holds from the first of two strings on, from the length of the second on, and from the second on. -/
theorem drop_twoStrings {b x y rest : Bytes} {o : Nat} (h : b.drop o = withLength x ++ (withLength y ++ rest)) :
    b.drop (o + 1) = x ++ (withLength y ++ rest) ∧ b.drop (o + 1 + x.length) = withLength y ++ rest ∧
      b.drop (o + 2 + x.length) = y ++ rest := by
  have hfirst : b.drop (o + 1) = x ++ (withLength y ++ rest) := drop_add_of_append (a := [_]) h rfl
  have hlength := drop_add_of_append hfirst rfl
  have hsecond : b.drop (o + 1 + x.length + 1) = y ++ rest := drop_add_of_append (a := [_]) hlength rfl
  exact ⟨hfirst, hlength, by rw [← hsecond, Nat.add_right_comm o 1, Nat.add_right_comm o 2]⟩

/-- The fields of two byte strings in a row, each behind its length byte. -/
structure StringFields where
  firstLength : Option Byte
  first : Option Bytes
  secondLength : Option Byte
  second : Option Bytes

/-- Two strings from offset `o` on, as the layouts of R312, R314 and R315 read them. -/
def stringFields (b : Bytes) (o : Nat) : StringFields :=
  let n := (byteAt b o).toNat
  let m := (byteAt b (o + 1 + n)).toNat
  { firstLength := need (o + 1) b (byteAt b o)
    first := if o + 1 ≤ b.length then need (o + 1 + n) b (slice b (o + 1) (o + 1 + n)) else none
    secondLength := if o + 1 ≤ b.length then need (o + 2 + n) b (byteAt b (o + 1 + n)) else none
    second := if o + 1 ≤ b.length ∧ o + 2 + n ≤ b.length then
        need (o + 2 + n + m) b (slice b (o + 2 + n) (o + 2 + n + m)) else none }

theorem serviceInfo_eq (b : Bytes) : serviceInfo b =
    .service (need 1 b (byteAt b 0)) (stringFields b 1).firstLength (stringFields b 1).first
      (stringFields b 1).secondLength (stringFields b 1).second := rfl

theorem shortEventInfo_eq (b : Bytes) : shortEventInfo b =
    .shortEvent (need 3 b (u24 b 0)) (stringFields b 3).firstLength (stringFields b 3).first
      (stringFields b 3).secondLength (stringFields b 3).second := rfl

theorem extEventInfo_eq (b : Bytes) : extEventInfo b =
    .extEvent (need 1 b ((byteAt b 0).extractLsb' 4 4)) (need 1 b ((byteAt b 0).extractLsb' 0 4)) (need 4 b (u24 b 1))
      (stringFields b 4).firstLength
      (if 5 ≤ b.length then itemWalk b (min (5 + (byteAt b 4).toNat) b.length) b.length 5 else [])
      (stringFields b 4).secondLength (stringFields b 4).second := rfl

/-- Two strings that end the body are read back with their lengths. -/
theorem stringFields_of_drop {b x y : Bytes} {o : Nat} (hx : x.length < 256) (hy : y.length < 256)
    (h : b.drop o = withLength x ++ withLength y) :
    stringFields b o =
      ⟨some (BitVec.ofNat 8 x.length), some x, some (BitVec.ofNat 8 y.length), some y⟩ := by
  rw [← List.append_nil (withLength y)] at h
  obtain ⟨hfirst, hsecondLength, hsecond⟩ := drop_twoStrings h
  have hlen : o + 2 + x.length + y.length ≤ b.length := by
    have hfit := add_length_le_of_drop hsecondLength (withLength_ne_nil y)
    rw [length_withLength] at hfit
    omega
  simp (disch := omega) only [stringFields, byteAt_of_drop h, byteAt_of_drop hsecondLength, toNat_lengthByte hx,
    toNat_lengthByte hy, slice_of_drop hfirst, slice_of_drop hsecond, need_of_le, if_pos]

/-! ## Bodies written from their parts -/

/-- An instruction appends the descriptor of the fields that its body is read to. -/
theorem exec_of_info {i : Instr} {s : State} {tag : Byte} {b : Bytes} {info info' : DescInfo} (h : info = info')
    (hexec : exec i s = .next (s.addDescriptor (mkDescriptor tag b info))) :
    exec i s = .next (s.addDescriptor (mkDescriptor tag b info')) := h ▸ hexec

theorem serviceInfo_of_parts {x y : Bytes} (a : Byte) (hx : x.length < 256) (hy : y.length < 256) :
    serviceInfo ([a, BitVec.ofNat 8 x.length] ++ x ++ [BitVec.ofNat 8 y.length] ++ y) =
      .service (some a) (some (BitVec.ofNat 8 x.length)) (some x) (some (BitVec.ofNat 8 y.length)) (some y) := by
  have hstrings : ([a, BitVec.ofNat 8 x.length] ++ x ++ [BitVec.ofNat 8 y.length] ++ y).drop 1 =
      withLength x ++ withLength y := by simp [withLength]
  rw [serviceInfo_eq, stringFields_of_drop hx hy hstrings]
  rfl

theorem shortEventInfo_of_parts {x y : Bytes} (lang : BitVec 24) (hx : x.length < 256) (hy : y.length < 256) :
    shortEventInfo ([lang.extractLsb' 16 8, lang.extractLsb' 8 8, lang.extractLsb' 0 8,
        BitVec.ofNat 8 x.length] ++ x ++ [BitVec.ofNat 8 y.length] ++ y) =
      .shortEvent (some lang) (some (BitVec.ofNat 8 x.length)) (some x) (some (BitVec.ofNat 8 y.length)) (some y) := by
  generalize hb : _ ++ x ++ [BitVec.ofNat 8 y.length] ++ y = b
  have hlang : b.drop 0 = be24 lang ++ (withLength x ++ withLength y) := by simp [← hb, be24, withLength]
  have hstrings : b.drop 3 = withLength x ++ withLength y := drop_add_of_append hlang rfl
  have hlen : 3 ≤ b.length := add_length_le_of_drop hlang (List.cons_ne_nil _ _)
  rw [shortEventInfo_eq, stringFields_of_drop hx hy hstrings, u24_of_drop hlang, need_of_le hlen]

/-- One profile takes 5 bytes behind the length byte (R324). -/
theorem applicationInfo_of_parts (profile : BitVec 16) (mj mn mc a c : Byte) (labels : Bytes) :
    applicationInfo ([5#8] ++ be16 profile ++ [mj, mn, mc, a, c] ++ labels) =
      .application (some 5#8) [⟨profile, mj, mn, mc⟩] (some (a.extractLsb' 7 1)) (some (a.extractLsb' 5 2)) (some c)
        labels := by
  generalize hb : [5#8] ++ be16 profile ++ [mj, mn, mc, a, c] ++ labels = b
  have hlength : (byteAt b 0).toNat = 5 := by rw [← hb]; rfl
  have hprofile : u16 b (1 + 5 * 0) = profile := u16_of_drop (by rw [← hb]; rfl)
  have hlen : 8 ≤ b.length := by rw [← hb, List.length_append]; exact Nat.le_add_right 8 _
  have hcount : min 5 (b.length - 1) / 5 = 1 := by rw [Nat.min_eq_left (by omega)]
  simp (disch := omega) only [applicationInfo, hlength, hcount, hprofile, need_of_le, if_pos, List.range_one,
    List.map_singleton]
  rw [← hb]
  rfl

/-- Settles O57: each body is read to the parts that it was written from; a generic descriptor has no field of its
own. -/
theorem descriptorStrings : Obligations.DescriptorStrings := by
  intro s x y a c lang hx hy
  refine ⟨⟨_, rfl, rfl⟩, ⟨_, exec_of_info (serviceInfo_of_parts a hx hy) rfl, ?service⟩,
    ⟨_, exec_of_info (shortEventInfo_of_parts lang hx hy) rfl, ?shortEvent⟩, fun profile mj mn mc labels i =>
    ⟨_, exec_of_info (applicationInfo_of_parts profile mj mn mc a c labels) rfl, ?application⟩,
    fun ns fid i hfid => ⟨_, rfl, rfl, rfl, ?generic⟩⟩
  case service | shortEvent =>
    exact ⟨rfl, congrArg some (numOf_length hx), rfl, congrArg some (numOf_length hy), rfl⟩
  case application => exact ⟨rfl, rfl, rfl, rfl, rfl, rfl, rfl, rfl, rfl, rfl, rfl, rfl⟩
  case generic => exact descField_of_lt hfid i

end Sys2Proof.Machine
end

section
/-! The kinds of 44_descriptors.md with a list of variable-size elements: the walk of R315 over the items of EXT_EVENT
and the walk of R325 over the names of APP_NAME read back the lists that a body was written from. -/

namespace Sys2Proof.Machine

/-! ## Items (R315) -/

/-- An item, written from its description and its text. -/
def itemBytes (e : Bytes × Bytes) : Bytes :=
  [BitVec.ofNat 8 e.1.length] ++ e.1 ++ [BitVec.ofNat 8 e.2.length] ++ e.2

theorem itemBytes_eq (e : Bytes × Bytes) : itemBytes e = withLength e.1 ++ withLength e.2 := by
  simp [itemBytes, withLength]

theorem length_itemBytes (e : Bytes × Bytes) : (itemBytes e).length = 2 + e.1.length + e.2.length := by
  rw [itemBytes_eq, List.length_append, length_withLength, length_withLength]
  omega

theorem itemWalk_end (b : Bytes) (iend n : Nat) : itemWalk b iend n iend = [] := by
  cases n with
  | zero => rfl
  | succ n => exact if_neg fun ⟨hlt, _⟩ => Nat.lt_irrefl _ hlt

/-- A turn of the walk at an item that ends before `iend` takes the item. -/
theorem itemWalk_turn {b rest : Bytes} {o iend : Nat} {e : Bytes × Bytes}
    (he : e.1.length < 256 ∧ e.2.length < 256) (h : b.drop o = itemBytes e ++ rest)
    (hend : o + (itemBytes e).length ≤ iend) (n : Nat) :
    itemWalk b iend (n + 1) o = ⟨e.1, e.2⟩ :: itemWalk b iend n (o + (itemBytes e).length) := by
  obtain ⟨hdescription, hitem⟩ := he
  rw [itemBytes_eq, List.append_assoc] at h
  rw [length_itemBytes] at hend ⊢
  obtain ⟨hfirst, hsecondLength, hsecond⟩ := drop_twoStrings h
  simp (disch := omega) only [itemWalk, byteAt_of_drop h, byteAt_of_drop hsecondLength, toNat_lengthByte hdescription,
    toNat_lengthByte hitem, slice_of_drop hfirst, slice_of_drop hsecond, if_pos, ← Nat.add_assoc]

/-- Every item takes at least 2 bytes, so the number of bytes of a list of items is turns enough to read it. -/
theorem itemWalk_of_drop {b rest : Bytes} {iend n o : Nat} {items : List (Bytes × Bytes)}
    (hitems : ∀ e ∈ items, e.1.length < 256 ∧ e.2.length < 256) (h : b.drop o = items.flatMap itemBytes ++ rest)
    (hend : iend = o + (items.flatMap itemBytes).length) (hn : (items.flatMap itemBytes).length ≤ n) :
    itemWalk b iend n o = items.map fun e => ⟨e.1, e.2⟩ := by
  induction items generalizing n o with
  | nil => rw [hend]; exact itemWalk_end b o n
  | cons e items ih =>
    obtain ⟨he, hitems⟩ := List.forall_mem_cons.1 hitems
    rw [List.flatMap_cons, List.append_assoc] at h
    rw [List.flatMap_cons, List.length_append] at hend hn
    have hpos := length_itemBytes e
    obtain ⟨n, rfl⟩ : ∃ n', n = n' + 1 := ⟨n - 1, by omega⟩
    rw [itemWalk_turn he h (by omega), ih hitems (drop_add_of_append h rfl) (by omega) (by omega), List.map_cons]

theorem extEventInfo_of_parts {items : List (Bytes × Bytes)} {text region : Bytes} (nn : Byte) (lang : BitVec 24)
    (hitems : ∀ e ∈ items, e.1.length < 256 ∧ e.2.length < 256) (htext : text.length < 256)
    (hregion : region = items.flatMap itemBytes) (hlen : region.length < 256) :
    extEventInfo ([nn, lang.extractLsb' 16 8, lang.extractLsb' 8 8, lang.extractLsb' 0 8,
        BitVec.ofNat 8 region.length] ++ region ++ [BitVec.ofNat 8 text.length] ++ text) =
      .extEvent (some (nn.extractLsb' 4 4)) (some (nn.extractLsb' 0 4)) (some lang)
        (some (BitVec.ofNat 8 region.length)) (items.map fun e => ⟨e.1, e.2⟩) (some (BitVec.ofNat 8 text.length))
        (some text) := by
  generalize hb : _ ++ region ++ [BitVec.ofNat 8 text.length] ++ text = b
  have hnumber : b.drop 0 = nn :: (be24 lang ++ (withLength region ++ withLength text)) := by
    simp [← hb, be24, withLength]
  have hlang : b.drop 1 = be24 lang ++ (withLength region ++ withLength text) :=
    drop_add_of_append (a := [_]) hnumber rfl
  have hstrings : b.drop 4 = withLength region ++ withLength text := drop_add_of_append hlang rfl
  have hwalk : b.drop 5 = items.flatMap itemBytes ++ withLength text :=
    hregion ▸ drop_add_of_append (a := [_]) hstrings rfl
  have hbody : 5 + region.length ≤ b.length := by
    have hfit := add_length_le_of_drop hstrings (withLength_ne_nil region)
    rw [length_withLength] at hfit
    omega
  rw [extEventInfo_eq, stringFields_of_drop hlen htext hstrings, byteAt_of_drop hnumber, u24_of_drop hlang,
    byteAt_of_drop hstrings, toNat_lengthByte hlen, Nat.min_eq_left hbody, if_pos (by omega),
    itemWalk_of_drop hitems hwalk (by rw [hregion]) (by rw [← hregion]; omega), need_of_le (by omega),
    need_of_le (by omega), need_of_le (by omega)]

/-! ## Names (R325) -/

/-- A name, written from its language and its text. -/
def nameBytes (e : BitVec 24 × Bytes) : Bytes := be24 e.1 ++ withLength e.2

theorem length_nameBytes (e : BitVec 24 × Bytes) : (nameBytes e).length = 4 + e.2.length := by
  rw [nameBytes, List.length_append, length_withLength, ← Nat.add_assoc]
  rfl

theorem nameWalk_end {b : Bytes} {o : Nat} (h : b.length ≤ o) (n : Nat) : nameWalk b n o = [] := by
  cases n with
  | zero => rfl
  | succ n => exact if_neg (by omega)

/-- A turn of the walk at a name takes the name. -/
theorem nameWalk_turn {b rest : Bytes} {o : Nat} {e : BitVec 24 × Bytes} (he : e.2.length < 256)
    (h : b.drop o = nameBytes e ++ rest) (n : Nat) :
    nameWalk b (n + 1) o =
      ⟨e.1, BitVec.ofNat 8 e.2.length, e.2⟩ :: nameWalk b n (o + (nameBytes e).length) := by
  have hend := add_length_le_of_drop h (List.cons_ne_nil _ _)
  rw [length_nameBytes] at hend ⊢
  rw [nameBytes, List.append_assoc] at h
  have hlength : b.drop (o + 3) = withLength e.2 ++ rest := drop_add_of_append h rfl
  have hname : b.drop (o + 4) = e.2 ++ rest := drop_add_of_append (o := o + 3) (a := [_]) hlength rfl
  simp (disch := omega) only [nameWalk, u24_of_drop h, byteAt_of_drop hlength, toNat_lengthByte he,
    slice_of_drop hname, if_pos, ← Nat.add_assoc]

/-- The names up to the end of the body, read in order. -/
theorem nameWalk_of_drop {b : Bytes} {n o : Nat} {names : List (BitVec 24 × Bytes)}
    (hnames : ∀ e ∈ names, e.2.length < 256) (h : b.drop o = names.flatMap nameBytes)
    (hn : (names.flatMap nameBytes).length ≤ n) :
    nameWalk b n o = names.map fun e => ⟨e.1, BitVec.ofNat 8 e.2.length, e.2⟩ := by
  induction names generalizing n o with
  | nil => exact nameWalk_end (List.drop_eq_nil_iff.1 h) n
  | cons e names ih =>
    obtain ⟨he, hnames⟩ := List.forall_mem_cons.1 hnames
    rw [List.flatMap_cons] at h
    rw [List.flatMap_cons, List.length_append] at hn
    have hpos := length_nameBytes e
    obtain ⟨n, rfl⟩ : ∃ n', n = n' + 1 := ⟨n - 1, by omega⟩
    rw [nameWalk_turn he h, ih hnames (drop_add_of_append h rfl) (by omega), List.map_cons]

theorem appNameInfo_of_parts {names : List (BitVec 24 × Bytes)} (hnames : ∀ e ∈ names, e.2.length < 256) :
    appNameInfo (names.flatMap nameBytes) =
      .appName (names.map fun e => ⟨e.1, BitVec.ofNat 8 e.2.length, e.2⟩) := by
  rw [appNameInfo, nameWalk_of_drop hnames rfl le_rfl]

/-! ## Lists of elements -/

section
variable {α β : Type} (l : List α) (f : α → β)

theorem countAt_map : countAt 0 (l.map f).length = some (.num (BitVec.ofNat 64 l.length)) := by
  rw [countAt, if_pos rfl, countOf, List.length_map]

theorem elemAt_map {w : Nat} (i : Nat) (g : β → BitVec w) :
    elemAt (l.map f) i g = l[i]?.map fun x => numOf (g (f x)) := by
  rw [elemAt, List.getElem?_map, Option.map_map]
  rfl

theorem strElemAt_map (i : Nat) (g : β → Bytes) : strElemAt (l.map f) i g = l[i]?.map fun x => .str (g (f x)) := by
  rw [strElemAt, List.getElem?_map, Option.map_map]
  rfl

end

/-- Settles O58: the walks of the items and of the names read back the lists that the bodies were written from. -/
theorem descriptorItems : Obligations.DescriptorItems := by
  refine ⟨fun s items text nn lang region hitems htext hregion hlen =>
    ⟨_, exec_of_info (extEventInfo_of_parts nn lang hitems htext hregion hlen) rfl, ?extEvent⟩, fun s names hnames =>
    ⟨_, exec_of_info (appNameInfo_of_parts hnames) rfl, ?appName⟩⟩
  case extEvent =>
    exact ⟨rfl, rfl, rfl, congrArg some (numOf_length hlen), countAt_map items _, fun i => strElemAt_map items _ i _,
      fun i => strElemAt_map items _ i _, congrArg some (numOf_length htext), rfl⟩
  case appName =>
    refine ⟨countAt_map names _, fun i => elemAt_map names _ i _, fun i => (elemAt_map names _ i _).trans ?_,
      fun i => strElemAt_map names _ i _⟩
    exact Option.map_congr fun e he => numOf_length (hnames e (List.mem_of_getElem? he))

end Sys2Proof.Machine
end

section
/-! Proofs of the family 45_packet_decoders.md: the program clock reference (R351, R352) and the pages of the EBU
accumulator (R355 to R357). -/

namespace Sys2Proof.Machine

/-! ## PCR.DECODE (R351, R352) -/

theorem pcrFits_iff (afl : Byte) : pcrFits afl = true ↔ 7 ≤ afl.toNat ∧ 5 + afl.toNat ≤ 188 := by
  rw [pcrFits, packetLength, Bool.and_eq_true, decide_eq_true_iff, decide_eq_true_iff]

/-- The formula of R351 over the naturals: 42 bits hold every `base * 300 + ext` of 33 and 9 bits. -/
theorem pcrValue_toNat (field : BitVec 48) :
    (pcrValue field).toNat = field.toNat / 2 ^ 15 * 300 + field.toNat % 2 ^ 9 := by
  have hbase : (field.extractLsb' 15 33).toNat = field.toNat / 2 ^ 15 := by
    rw [BitVec.extractLsb'_toNat, Nat.shiftRight_eq_div_pow, Nat.mod_eq_of_lt]
    have := field.isLt
    omega
  have hext : (field.extractLsb' 0 9).toNat = field.toNat % 2 ^ 9 := by
    rw [BitVec.extractLsb'_toNat, Nat.shiftRight_zero]
  have hlt := field.isLt
  simp only [pcrValue, BitVec.toNat_add, BitVec.toNat_mul, BitVec.toNat_setWidth, BitVec.toNat_ofNat, hbase, hext]
  omega

/-- Settles O59: whether the field fits decides the branch, and the stored value is the formula of R351. -/
theorem pcrFormula : Obligations.PcrFormula := by
  refine fun s pid afl f => ⟨fun hfits => ⟨pcrValue f, ?decoded, pcrValue_toNat f⟩, fun hshort => ?nothing⟩
  case decoded => rw [exec, execPcrDecode, if_pos ((pcrFits_iff afl).2 hfits)]
  case nothing => rw [exec, execPcrDecode, if_neg (mt (pcrFits_iff afl).1 hshort)]

/-! ## EBU.HEADER and EBU.LINE (R355 to R357) -/

section
variable {s : State} {k : EbuKey}

/-- A header for an open page completes it: the notification of unit 9 stands. -/
theorem exec_ebuHeader_enabled (ho : (s.pageOf k).isOpen = true) (he : s.cbEnabled .ebu = true) :
    exec (.ebuHeader k) s =
      .next { s with ebuDone := some k, pending := .ebu, phase := .inNotify, out := s.out ++ [.notify .ebu] } := by
  rw [exec, execEbuHeader, if_pos ho, if_pos he]
  exact congrArg Host.Outcome.next (if_pos he)

/-- With the slot disabled the lines of the completed page are dropped, and it stays open. -/
theorem exec_ebuHeader_disabled (ho : (s.pageOf k).isOpen = true) (he : s.cbEnabled .ebu = false) :
    exec (.ebuHeader k) s = .next (s.setPage k ⟨true, []⟩) := by
  simp only [exec, execEbuHeader, State.clearLines, ho, if_true, if_neg (Bool.eq_false_iff.1 he)]

theorem exec_ebuHeader_closed (hc : (s.pageOf k).isOpen = false) :
    exec (.ebuHeader k) s = .next (s.setPage k ⟨true, []⟩) := by
  rw [exec, execEbuHeader, if_neg (Bool.eq_false_iff.1 hc)]

theorem exec_ebuLine_open (row : Byte) (data : Bytes) (ho : (s.pageOf k).isOpen = true) :
    exec (.ebuLine k row data) s = .next (s.setPage k ⟨true, (s.pageOf k).lines ++ [⟨row, data⟩]⟩) := by
  simp only [exec, execEbuLine, ho, if_true]

theorem exec_ebuLine_closed (row : Byte) (data : Bytes) (hc : (s.pageOf k).isOpen = false) :
    exec (.ebuLine k row data) s = .next s := by
  rw [exec, execEbuLine, if_neg (Bool.eq_false_iff.1 hc)]

/-- What an instruction does that writes one page: that page, and neither the other pages nor the rest of the state. -/
theorem exists_next_setPage {i : Instr} {pg : EbuPage} (hwf : Memory.wf s = true)
    (he : exec i s = .next (s.setPage k pg)) :
    ∃ t, exec i s = .next t ∧ t = { s with ebu := t.ebu } ∧ t.pageOf k = pg ∧ ∀ j, j ≠ k → t.pageOf j = s.pageOf j :=
  ⟨_, he, rfl, pageOf_setPage_same s k pg hwf, fun j hj => pageOf_setPage_other s k j pg hj hwf⟩

/-- The bytes of the line a page ends with (10_state.md R33). -/
theorem readByte_ebu_last {isOpen : Bool} {lines : List EbuLine} {l : EbuLine}
    (hpage : s.pageOf k = ⟨isOpen, lines ++ [l]⟩) (j : Nat) : readByte s (.ebu k lines.length j) = l.data[j]? := by
  rw [readByte, hpage, List.getElem?_concat_length, Option.bind_some]

end

/-- Settles O60: the page is open or not, and for a header of an open page the slot decides whether the lines stay. -/
theorem ebuAccumulator : Obligations.EbuAccumulator := by
  refine ⟨fun s k hwf => ⟨exec_ebuHeader_enabled, fun ho he => ?dropped, fun hc => ?opened⟩,
    fun s k row data hwf => ⟨exec_ebuLine_closed row data, fun ho => ?appended⟩⟩
  case dropped => exact exists_next_setPage hwf (exec_ebuHeader_disabled ho he)
  case opened => exact exists_next_setPage hwf (exec_ebuHeader_closed hc)
  case appended =>
    obtain ⟨t, hexec, ht, hpage, hother⟩ := exists_next_setPage hwf (exec_ebuLine_open row data ho)
    exact ⟨t, hexec, ht, hpage, readByte_ebu_last hpage, hother⟩

end Sys2Proof.Machine
end

section
/-! Proofs of the family 60_exceptions.md: what counts an error and what raises a notification, by the effects an
instruction can have; raising and acknowledging; the stall and the reset input. -/

namespace Sys2Proof.Machine

/-! ## Counters (R370, R390) -/

@[simp] theorem State.acknowledge_packets (s : State) : s.acknowledge.packets = s.packets := by
  obtain ⟨k, -, -, he⟩ | ⟨-, he⟩ := acknowledge_cases s <;> simp [he]

@[simp] theorem State.acknowledge_errors (s : State) : s.acknowledge.errors = s.errors := by
  obtain ⟨k, -, -, he⟩ | ⟨-, he⟩ := acknowledge_cases s <;> simp [he]

@[simp] theorem State.acknowledge_phase (s : State) : s.acknowledge.phase = .inBatch := by
  obtain ⟨k, -, -, he⟩ | ⟨-, he⟩ := acknowledge_cases s <;> simp [he]

section
variable {s t : State} {i : Instr}

/-- A packet counts in one counter, a raised error in the other, and nothing but `RESET` writes a counter otherwise. -/
theorem counters_le_of_exec (he : exec i s = .next t) (hi : i ≠ .reset) :
    s.packets ≤ t.packets ∧ s.errors ≤ t.errors := by
  cases exec_effect he with
  | cleared => exact absurd rfl hi
  | packet => exact ⟨le_satInc _ _, le_rfl⟩
  | jumped | integrity => exact ⟨le_rfl, le_satInc _ _⟩
  | _ => simp

/-- The effects that write the error counter are the clearing of `RESET`, the continuity error and the CRC error. -/
theorem errors_source (he : exec i s = .next t) (hne : t.errors ≠ s.errors) :
    i = .reset ∨ (∃ p b, i = .secCc p b) ∨ ∃ p b, i = .secCrc p b := by
  cases exec_effect he with
  | cleared => exact .inl rfl
  | jumped pid payload => exact .inr (.inl ⟨pid, payload, rfl⟩)
  | integrity pid sec => exact .inr (.inr ⟨pid, sec, rfl⟩)
  | _ => exact absurd (by simp) hne

end

/-- Settles O17: by the effect of the instruction. -/
theorem counterSources : Obligations.CounterSources :=
  ⟨fun _ _ _ => counters_le_of_exec, fun _ _ _ => errors_source⟩

/-! ## Notifications (R380, R383) -/

/-- A notification that was not outstanding before `notify` is that unit's, and its slot is enabled. -/
theorem notify_stalls {s : State} {u : UnitId} (ht : (s.notify u).phase = .inNotify) (hs : s.phase ≠ .inNotify) :
    s.cbEnabled u = true ∧ (s.notify u).pending = u := by
  obtain ⟨hen, he⟩ | ⟨-, he⟩ := notify_cases s u
  · exact ⟨hen, by rw [he]⟩
  · exact absurd (he ▸ ht) hs

/-- Settles O19: the effects that end in `notify` are those of R383's events; every other effect keeps the phase or
enters the batch. -/
theorem notifySources : Obligations.NotifySources := by
  intro i s t he hs ht
  cases exec_effect he with
  | pat | pmt | nit | sdt | eit | tdt | ait | completed | pcr | pageDone =>
    obtain ⟨henabled, hpending⟩ := notify_stalls ht hs
    rw [hpending]
    exact ⟨henabled, by simp⟩
  | cleared | batch => cases ht
  | acknowledged => exact absurd ht (by simp)
  | _ => exact absurd ht hs

/-- Settles O23: an error is counted by `satInc`, and `notify` asks for the unit's slot. -/
theorem raiseAndNotify : Obligations.RaiseAndNotify := by
  refine ⟨fun s c => rfl, fun s u => ⟨fun hon => if_pos hon, fun hoff => if_neg ?_⟩⟩
  exact Bool.eq_false_iff.1 hoff

/-! ## The acknowledgement (R382) -/

section
variable {s : State}

theorem exec_ack_of_inNotify (hp : s.phase = .inNotify) : exec .ack s = .next s.acknowledge := by
  rw [exec, execAck, if_pos hp]

theorem exec_ack_of_not_inNotify (hp : s.phase ≠ .inNotify) : exec .ack s = .next (s.respond .refused) := by
  rw [exec, execAck, if_neg hp]

theorem acknowledge_of_ne_ebu (hu : s.pending ≠ .ebu) : s.acknowledge = { s with phase := .inBatch } := by
  obtain ⟨_, hebu, -, -⟩ | ⟨-, he⟩ := acknowledge_cases s
  · exact absurd hebu hu
  · exact he

/-- The lines of the completed page are cleared (45_packet_decoders.md R355). -/
theorem acknowledge_of_ebu {k : EbuKey} (hu : s.pending = .ebu) (hk : s.ebuDone = some k) :
    s.acknowledge = { s.clearLines k with ebuDone := none, phase := .inBatch } := by
  rw [State.acknowledge, hu, hk]

end

/-- Settles O24: the phase decides the answer, and the pending unit whether a page is cleared. -/
theorem ackReturns : Obligations.AckReturns := by
  refine fun s => ⟨exec_ack_of_not_inNotify, fun hp hu => ?others, fun hp hu k hk hwf => ?ebu⟩
  case others => rw [exec_ack_of_inNotify hp, acknowledge_of_ne_ebu hu]
  case ebu =>
    rw [exec_ack_of_inNotify hp, acknowledge_of_ebu hu hk]
    exact ⟨_, rfl, rfl, pageOf_setPage_same s k _ hwf, fun j hj => pageOf_setPage_other s k j _ hj hwf⟩

/-! ## The stall and the reset input (R381, 70_reset_and_hazards.md R410) -/

/-- With nothing from the host, the block changes only in a batch. -/
theorem step_idle {s : State} (hp : s.phase ≠ .inBatch) (hh : s.host = []) : step s = .next s := by
  have hnone : s.takeAction = none := by rw [State.takeAction, hh]
  simp only [step, hnone, if_neg hp]

/-- Settles O7: the reset input is a due action of the host in whatever phase, and the state it leaves is that of
power-on but for what is not the block's. -/
theorem stallAndPowerOn : Obligations.StallAndPowerOn :=
  ⟨fun _ => step_idle, fun _ _ _ hs hd =>
    ⟨_, step_host hs hd, rfl, rfl, rfl, rfl, rfl, rfl, rfl, rfl, rfl, rfl, fun _ => rfl⟩⟩

end Sys2Proof.Machine
end
